-- ==== Sys2Proof/Word.lean ====
section
/-! DEFINITION. The data widths of the block: the 32-bit register value, the byte of the SPI0 FIFOs,
the 64-bit canonical transaction word and the pin identifier (spec/00_scope.md R5, R6;
spec/30_encoding.md R100, R101). -/

namespace Sys2Proof

/-- `NPINS`, the number of GPIO pins (R5). -/
abbrev numPins : Nat := 54

/-- A register value or a transaction datum: an unsigned 32-bit value (R5 `REG_WIDTH`, R6). -/
abbrev Word := BitVec 32

/-- One entry of an SPI0 FIFO (R12 "Entry", R36). -/
abbrev Byte := BitVec 8

/-- The canonical 64-bit word of one bus transaction (R101). -/
abbrev TWord := BitVec 64

/-- A pin identifier, 0 to 53 (R5). -/
abbrev Pin := Fin numPins

/-- One bit per pin, pin `p` at bit `p`: the representation of the arrays `OUT[p]`, `EDS[p]`, … (R24 to R29). -/
abbrev PinBits := BitVec numPins

end Sys2Proof
end

