-- ==== Sys2Proof/Config.lean ====
section
/-! DEFINITION. What an implementation of the block fixes (spec/00_scope.md R5), the names of its
blocks, registers, pin functions and pull modes, and the free values: constants WITHOUT A BODY that
stand for every `draw` of the spec (R9), for the slave oracle (spec/10_state.md R61) and for the
choice of the next agent (R10, spec/20_memory.md R83). Nothing can be proved of a free value, so a
claim that holds in the model holds for every value of it. -/

namespace Sys2Proof

/-- `PUD_VARIANT`: the two generations of the pull-resistor control (R2, R5). -/
inductive PudVariant where
  | legacy
  | modern
deriving DecidableEq, Repr, Inhabited

/-- The seven blocks of the register base set (R12, R76). `clock` has a base and no register. -/
inductive Block where
  | gpio
  | clock
  | pads
  | spi0
  | st
  | aux
  | spi1
deriving DecidableEq, Repr, Inhabited

/-- The 47 registers of R103, a register pair or group as one constructor with its member's index. -/
inductive Reg where
  | gpfsel (n : Fin 6)
  | gpset (n : Fin 2)
  | gpclr (n : Fin 2)
  | gplev (n : Fin 2)
  | gpeds (n : Fin 2)
  | gpren (n : Fin 2)
  | gpfen (n : Fin 2)
  | gphen (n : Fin 2)
  | gplen (n : Fin 2)
  | gparen (n : Fin 2)
  | gpafen (n : Fin 2)
  | gppud
  | gppudclk (n : Fin 2)
  | gppuppdn (n : Fin 4)
  | pads (g : Fin 3)
  | clo
  | chi
  | cs
  | fifo
  | clk
  | enb
  | cntl0
  | cntl1
  | stat
  | io
  | txhold
deriving DecidableEq, Repr, Inhabited

/-- The eight functions of a pin (R23, R105). -/
inductive FunSel where
  | input
  | output
  | alt0
  | alt1
  | alt2
  | alt3
  | alt4
  | alt5
deriving DecidableEq, Repr, Inhabited

/-- The pull resistor applied to a pin (R30). -/
inductive Pull where
  | off
  | up
  | down
deriving DecidableEq, Repr, Inhabited

/-- What the outside world drives on a pin, `EXT[p]` (R25). -/
inductive Ext where
  | high
  | low
  | z
deriving DecidableEq, Repr, Inhabited

/-- `PUD_CODE_LEGACY`: the code of each pull mode on the Legacy control register (R5, R107). -/
structure PudCodes where
  off : BitVec 2
  up : BitVec 2
  down : BitVec 2
deriving DecidableEq, Repr, Inhabited

/-- `FSEL_CODE`: the code of each pin function (R5, R105). -/
structure FselCodes where
  input : BitVec 3
  output : BitVec 3
  alt0 : BitVec 3
  alt1 : BitVec 3
  alt2 : BitVec 3
  alt3 : BitVec 3
  alt4 : BitVec 3
  alt5 : BitVec 3
deriving DecidableEq, Repr, Inhabited

/-- The byte offset of each block from the base of the peripheral block (R76, R102). -/
structure BlockBases where
  gpio : Nat
  clock : Nat
  pads : Nat
  spi0 : Nat
  st : Nat
  aux : Nat
  spi1 : Nat
deriving DecidableEq, Repr, Inhabited

/-- The word index of each register inside its block, of a pair or group that of each of its members (R103). -/
structure WordIndices where
  gpfsel : Vector Nat 6
  gpset : Vector Nat 2
  gpclr : Vector Nat 2
  gplev : Vector Nat 2
  gpeds : Vector Nat 2
  gpren : Vector Nat 2
  gpfen : Vector Nat 2
  gphen : Vector Nat 2
  gplen : Vector Nat 2
  gparen : Vector Nat 2
  gpafen : Vector Nat 2
  gppud : Nat
  gppudclk : Vector Nat 2
  gppuppdn : Vector Nat 4
  pads : Vector Nat 3
  clo : Nat
  chi : Nat
  cs : Nat
  fifo : Nat
  clk : Nat
  enb : Nat
  cntl0 : Nat
  cntl1 : Nat
  stat : Nat
  io : Nat
  txhold : Nat
deriving DecidableEq, Repr, Inhabited

/-- Where the bits of a register stand: entry `j` is the position of the bit that the tables of spec/30_encoding.md
put at bit `j` (R5, "bit positions"). -/
structure BitPlaces where
  place : Vector (Fin 32) 32
deriving DecidableEq, Repr, Inhabited

/-- The bit positions that are configuration values, one placing for each register, or group of alike ones, whose positions
the source does not fix: the pull control (R107), the Modern pull fields (R108), the pads (R109), the SPI0 registers (R111,
R112), the auxiliary enable (R114) and the SPI1 control and status registers (R113, R114). The function-select fields
(R104), the one-bit registers (R106) and the SPI1 data words (R115) stand where the source puts them, and a half of the
counter (R110) is a whole word (assumption log entry 7). -/
structure BitLayout where
  gppud : BitPlaces
  puppdn : BitPlaces
  pads : BitPlaces
  cs : BitPlaces
  fifo : BitPlaces
  clk : BitPlaces
  enb : BitPlaces
  cntl0 : BitPlaces
  cntl1 : BitPlaces
  stat : BitPlaces
deriving DecidableEq, Repr, Inhabited

/-- The block bases and word indices of the address map, a configuration value (R5, R76). -/
structure AddrMap where
  base : BlockBases
  index : WordIndices
deriving DecidableEq, Repr, Inhabited

/-- The implementation parameters of R5 that the spec leaves open or overridable. They are plain data
held in `State.params`, which no step changes, so that every claim about the step holds for every
value of them (assumption log entry 2). -/
structure Params where
  /-- `PUD_VARIANT` -/
  variant : PudVariant
  /-- `T_PUD`, as a duration in nanoseconds -/
  tPudNs : Nat
  /-- `PUD_CODE_LEGACY` -/
  pudCodes : PudCodes
  /-- `PAD_PASSWD` -/
  padPasswd : Word
  /-- `CORE_CLOCK_HZ` -/
  coreClockHz : Nat
  /-- `SPI0_FIFO_DEPTH` -/
  spi0Depth : Nat
  /-- `AUX_FIFO_DEPTH` -/
  auxDepth : Nat
  /-- `AUX_SPEED_MAX` -/
  auxSpeedMax : Nat
  /-- `AUX_CLOCK_MIN` -/
  auxClockMin : Nat
  /-- `AUX_CLOCK_MAX` -/
  auxClockMax : Nat
  /-- `AUX_HOLD_EAGER` (a fairness switch: R253) -/
  auxHoldEager : Bool
  /-- the address map: block bases and register offsets -/
  addrMap : AddrMap
  /-- the address map: bit positions -/
  layout : BitLayout
  /-- `PAD_GROUPS`, by the first and the last pin of each group -/
  padGroups : List (Pin × Pin)
  /-- `FSEL_CODE` -/
  fselCodes : FselCodes
  /-- `SPI0_PINS` -/
  spi0Pins : List Pin
  /-- `SPI0_ALT` -/
  spi0Alt : FunSel
  /-- `SPI1_PINS` -/
  spi1Pins : List Pin
  /-- `SPI1_ALT` -/
  spi1Alt : FunSel
deriving DecidableEq, Repr, Inhabited

/-- The source's encoding `Off = 0`, `Up = 1`, `Down = 2` of the pull modes (R107). -/
def PudCodes.source : PudCodes := { off := 0, up := 1, down := 2 }

/-- The table of codes of R105. -/
def FselCodes.table : FselCodes where
  input := 0b000
  output := 0b001
  alt0 := 0b100
  alt1 := 0b101
  alt2 := 0b110
  alt3 := 0b111
  alt4 := 0b011
  alt5 := 0b010

/-- The block bases of R102. -/
def BlockBases.table : BlockBases where
  st := 0x003000
  pads := 0x100000
  clock := 0x101000
  gpio := 0x200000
  spi0 := 0x204000
  aux := 0x215000
  spi1 := 0x215080

/-- The word indices of R103. -/
def WordIndices.table : WordIndices where
  gpfsel := #v[0, 1, 2, 3, 4, 5]
  gpset := #v[7, 8]
  gpclr := #v[10, 11]
  gplev := #v[13, 14]
  gpeds := #v[16, 17]
  gpren := #v[19, 20]
  gpfen := #v[22, 23]
  gphen := #v[25, 26]
  gplen := #v[28, 29]
  gparen := #v[31, 32]
  gpafen := #v[34, 35]
  gppud := 37
  gppudclk := #v[38, 39]
  gppuppdn := #v[57, 58, 59, 60]
  pads := #v[11, 12, 13]
  clo := 1
  chi := 2
  cs := 0
  fifo := 1
  clk := 2
  enb := 1
  cntl0 := 0
  cntl1 := 1
  stat := 2
  io := 8
  txhold := 12

/-- The address map of R102 and R103, the one spec/opcode_table.json is written over. -/
def AddrMap.table : AddrMap := { base := BlockBases.table, index := WordIndices.table }

/-- Every bit at the place the tables of spec/30_encoding.md give it. -/
def BitPlaces.table : BitPlaces :=
  ⟨#v[0, 1, 2, 3, 4, 5, 6, 7, 8, 9, 10, 11, 12, 13, 14, 15, 16, 17, 18, 19, 20, 21, 22, 23, 24, 25, 26, 27, 28, 29, 30, 31]⟩

/-- The bit positions of R107 to R109 and of R111 to R114. -/
def BitLayout.table : BitLayout where
  gppud := BitPlaces.table
  puppdn := BitPlaces.table
  pads := BitPlaces.table
  cs := BitPlaces.table
  fifo := BitPlaces.table
  clk := BitPlaces.table
  enb := BitPlaces.table
  cntl0 := BitPlaces.table
  cntl1 := BitPlaces.table
  stat := BitPlaces.table

/-- `TIMER_HZ`, `TIMER` steps per second (R5, R191). -/
def timerHz : Nat := 1000000

/-- `T_PUD_CYCLES`, the least wait between the steps of the Legacy pull protocol in cycles of an unnamed clock (R5). -/
def tPudCycles : Nat := 150

/-- `T_PUD_TICKS`: `T_PUD` in `TIMER` steps, rounded up (R5). -/
def Params.tPudTicks (p : Params) : Nat := (p.tPudNs * timerHz + (10 ^ 9 - 1)) / 10 ^ 9

/-- The frequency of the unnamed clock of which `T_PUD` is `T_PUD_CYCLES` cycles, in Hz; nothing depends on it (R380). -/
def Params.pudClockHz (p : Params) : Nat := tPudCycles * 10 ^ 9 / p.tPudNs

/-- The values R5 lists, with the values the spec's own test vectors use for the open ones and
`Legacy` for `PUD_VARIANT` (assumption log entry 2). -/
def Params.standard : Params where
  variant := .legacy
  tPudNs := 5000
  pudCodes := PudCodes.source
  padPasswd := 0x5A000000
  coreClockHz := 250000000
  spi0Depth := 16
  auxDepth := 4
  auxSpeedMax := 4095
  auxClockMin := 30500
  auxClockMax := 125000000
  auxHoldEager := true
  addrMap := AddrMap.table
  layout := BitLayout.table
  padGroups := [(0, 27), (28, 45), (46, 53)]
  fselCodes := FselCodes.table
  spi0Pins := [7, 8, 9, 10, 11]
  spi0Alt := .alt0
  spi1Pins := [16, 19, 20, 21]
  spi1Alt := .alt4

/-- `PUD_DELAY`, the wait of the Legacy pull sequence in microseconds (R5). -/
def pudDelay : BitVec 64 := 10

/-- `SLEEP_THRESHOLD` of the hybrid delay, in microseconds (R5). -/
def sleepThreshold : BitVec 64 := 450

/-- `SLEEP_MARGIN` of the hybrid delay, in microseconds (R5). -/
def sleepMargin : BitVec 64 := 200

/-- `AUX_GROUP_MAX`, bytes per SPI1 variable-width transaction (R5). -/
def auxGroupMax : Nat := 3

/-- One serial transaction of the event history `HIST` (R62). -/
inductive HistEvent where
  /-- `spi0(line, mode, cdiv_eff, sent, received)` -/
  | spi0 (line mode : BitVec 2) (cdivEff : Nat) (sent received : Byte)
  /-- `spi1(cspat, speed, n, sent, received, hold)`, the `n` bits as the low bits of a 24-bit
  value -/
  | spi1 (cspat : BitVec 3) (speed : Nat) (n : Nat) (sent received : BitVec 24) (hold : Bool)
deriving DecidableEq, Repr, Inhabited

/-- The agents of R10 with the choices their steps carry: which pin's latch fires (R181), what `ENV`
does (R60). -/
inductive Agent where
  /-- `HOST`: the next operation of the host's program -/
  | host
  /-- `TIMER` (R191) -/
  | timer
  /-- `GPIO.SAMPLE` (R175) -/
  | sample
  /-- `GPIO.PUDLATCH` of one pin (R181) -/
  | pudLatch (p : Pin)
  /-- `SPI0.SHIFT` (R214) -/
  | spi0Shift
  /-- `SPI1.SHIFT` (R252) -/
  | spi1Shift
  /-- `SPI1.RXPUSH` (R254) -/
  | rxPush
  /-- `ENV`, `SetExt(p, l)` (R60) -/
  | setExt (p : Pin) (l : Ext)
  /-- `ENV`, `Sleep(d)` (R60) -/
  | sleep (d : Nat)
  /-- `HOST`: the software is started again (R371; assumption log entry 30) -/
  | restart
deriving DecidableEq, Repr, Inhabited

/-- `draw(n)` for `n ≤ 32`: the low `n` bits, or the named bits, of the word drawn at one value of the
draw counter (R9; assumption log entry 3). -/
opaque Config.freeWord : Nat → Word

/-- One `draw(1)` per pin at one value of the draw counter (R25, R31, R176; log entry 3). -/
opaque Config.freePins : Nat → PinBits

/-- One `draw` among `Off`, `Up`, `Down` per pin at one value of the draw counter (R165, R181; log entry 3). -/
opaque Config.freePull : Nat → Pin → Pull

/-- The agent that steps next when `State.agenda` names none (R10, R83; log entry 4). -/
opaque Config.freeAgent : Nat → Agent

/-- `Slave0(line, mode, b, hist)` (R61): what an SPI0 slave answers, under no law (log entry 5). -/
opaque Config.slave0 (line mode : BitVec 2) (b : Byte) (hist : List HistEvent) : Byte

/-- `Slave1(cspat, n, bits, first, hist)` (R61), the low `n` bits of the value (log entry 5). -/
opaque Config.slave1 (cspat : BitVec 3) (n : Nat) (bits : BitVec 24) (first : Bool) (hist : List HistEvent) : BitVec 24

end Sys2Proof
end

