-- ==== Sys2Proof/Syntax.lean ====
section
/-! DEFINITION. The instructions: one constructor per row of spec/opcode_table.json, that is per register
of spec/30_encoding.md R103 and direction. `nb` is the non-barriered form (R100); a write carries its
32-bit value. -/

namespace Sys2Proof

/-- One bus transaction: `RD reg` or `WR reg, v`, barriered or not (R100, R122). -/
inductive Instr where
  /-- `RD GPIO.GPFSEL0` (R140) -/
  | rdGpfsel0 (nb : Bool)
  /-- `WR GPIO.GPFSEL0` (R141) -/
  | wrGpfsel0 (nb : Bool) (v : Word)
  /-- `RD GPIO.GPFSEL1` (R140) -/
  | rdGpfsel1 (nb : Bool)
  /-- `WR GPIO.GPFSEL1` (R141) -/
  | wrGpfsel1 (nb : Bool) (v : Word)
  /-- `RD GPIO.GPFSEL2` (R140) -/
  | rdGpfsel2 (nb : Bool)
  /-- `WR GPIO.GPFSEL2` (R141) -/
  | wrGpfsel2 (nb : Bool) (v : Word)
  /-- `RD GPIO.GPFSEL3` (R140) -/
  | rdGpfsel3 (nb : Bool)
  /-- `WR GPIO.GPFSEL3` (R141) -/
  | wrGpfsel3 (nb : Bool) (v : Word)
  /-- `RD GPIO.GPFSEL4` (R140) -/
  | rdGpfsel4 (nb : Bool)
  /-- `WR GPIO.GPFSEL4` (R141) -/
  | wrGpfsel4 (nb : Bool) (v : Word)
  /-- `RD GPIO.GPFSEL5` (R140) -/
  | rdGpfsel5 (nb : Bool)
  /-- `WR GPIO.GPFSEL5` (R141) -/
  | wrGpfsel5 (nb : Bool) (v : Word)
  /-- `RD GPIO.GPSET0` (R143) -/
  | rdGpset0 (nb : Bool)
  /-- `WR GPIO.GPSET0` (R142) -/
  | wrGpset0 (nb : Bool) (v : Word)
  /-- `RD GPIO.GPSET1` (R143) -/
  | rdGpset1 (nb : Bool)
  /-- `WR GPIO.GPSET1` (R142) -/
  | wrGpset1 (nb : Bool) (v : Word)
  /-- `RD GPIO.GPCLR0` (R145) -/
  | rdGpclr0 (nb : Bool)
  /-- `WR GPIO.GPCLR0` (R144) -/
  | wrGpclr0 (nb : Bool) (v : Word)
  /-- `RD GPIO.GPCLR1` (R145) -/
  | rdGpclr1 (nb : Bool)
  /-- `WR GPIO.GPCLR1` (R144) -/
  | wrGpclr1 (nb : Bool) (v : Word)
  /-- `RD GPIO.GPLEV0` (R146) -/
  | rdGplev0 (nb : Bool)
  /-- `WR GPIO.GPLEV0` (R147) -/
  | wrGplev0 (nb : Bool) (v : Word)
  /-- `RD GPIO.GPLEV1` (R146) -/
  | rdGplev1 (nb : Bool)
  /-- `WR GPIO.GPLEV1` (R147) -/
  | wrGplev1 (nb : Bool) (v : Word)
  /-- `RD GPIO.GPEDS0` (R148) -/
  | rdGpeds0 (nb : Bool)
  /-- `WR GPIO.GPEDS0` (R149) -/
  | wrGpeds0 (nb : Bool) (v : Word)
  /-- `RD GPIO.GPEDS1` (R148) -/
  | rdGpeds1 (nb : Bool)
  /-- `WR GPIO.GPEDS1` (R149) -/
  | wrGpeds1 (nb : Bool) (v : Word)
  /-- `RD GPIO.GPREN0` (R150) -/
  | rdGpren0 (nb : Bool)
  /-- `WR GPIO.GPREN0` (R151) -/
  | wrGpren0 (nb : Bool) (v : Word)
  /-- `RD GPIO.GPREN1` (R150) -/
  | rdGpren1 (nb : Bool)
  /-- `WR GPIO.GPREN1` (R151) -/
  | wrGpren1 (nb : Bool) (v : Word)
  /-- `RD GPIO.GPFEN0` (R152) -/
  | rdGpfen0 (nb : Bool)
  /-- `WR GPIO.GPFEN0` (R153) -/
  | wrGpfen0 (nb : Bool) (v : Word)
  /-- `RD GPIO.GPFEN1` (R152) -/
  | rdGpfen1 (nb : Bool)
  /-- `WR GPIO.GPFEN1` (R153) -/
  | wrGpfen1 (nb : Bool) (v : Word)
  /-- `RD GPIO.GPHEN0` (R154) -/
  | rdGphen0 (nb : Bool)
  /-- `WR GPIO.GPHEN0` (R155) -/
  | wrGphen0 (nb : Bool) (v : Word)
  /-- `RD GPIO.GPHEN1` (R154) -/
  | rdGphen1 (nb : Bool)
  /-- `WR GPIO.GPHEN1` (R155) -/
  | wrGphen1 (nb : Bool) (v : Word)
  /-- `RD GPIO.GPLEN0` (R156) -/
  | rdGplen0 (nb : Bool)
  /-- `WR GPIO.GPLEN0` (R157) -/
  | wrGplen0 (nb : Bool) (v : Word)
  /-- `RD GPIO.GPLEN1` (R156) -/
  | rdGplen1 (nb : Bool)
  /-- `WR GPIO.GPLEN1` (R157) -/
  | wrGplen1 (nb : Bool) (v : Word)
  /-- `RD GPIO.GPAREN0` (R158) -/
  | rdGparen0 (nb : Bool)
  /-- `WR GPIO.GPAREN0` (R159) -/
  | wrGparen0 (nb : Bool) (v : Word)
  /-- `RD GPIO.GPAREN1` (R158) -/
  | rdGparen1 (nb : Bool)
  /-- `WR GPIO.GPAREN1` (R159) -/
  | wrGparen1 (nb : Bool) (v : Word)
  /-- `RD GPIO.GPAFEN0` (R160) -/
  | rdGpafen0 (nb : Bool)
  /-- `WR GPIO.GPAFEN0` (R161) -/
  | wrGpafen0 (nb : Bool) (v : Word)
  /-- `RD GPIO.GPAFEN1` (R160) -/
  | rdGpafen1 (nb : Bool)
  /-- `WR GPIO.GPAFEN1` (R161) -/
  | wrGpafen1 (nb : Bool) (v : Word)
  /-- `RD GPIO.GPPUD` (R162) -/
  | rdGppud (nb : Bool)
  /-- `WR GPIO.GPPUD` (R163) -/
  | wrGppud (nb : Bool) (v : Word)
  /-- `RD GPIO.GPPUDCLK0` (R164) -/
  | rdGppudclk0 (nb : Bool)
  /-- `WR GPIO.GPPUDCLK0` (R165) -/
  | wrGppudclk0 (nb : Bool) (v : Word)
  /-- `RD GPIO.GPPUDCLK1` (R164) -/
  | rdGppudclk1 (nb : Bool)
  /-- `WR GPIO.GPPUDCLK1` (R165) -/
  | wrGppudclk1 (nb : Bool) (v : Word)
  /-- `RD GPIO.GPPUPPDN0` (R166) -/
  | rdGppuppdn0 (nb : Bool)
  /-- `WR GPIO.GPPUPPDN0` (R167) -/
  | wrGppuppdn0 (nb : Bool) (v : Word)
  /-- `RD GPIO.GPPUPPDN1` (R166) -/
  | rdGppuppdn1 (nb : Bool)
  /-- `WR GPIO.GPPUPPDN1` (R167) -/
  | wrGppuppdn1 (nb : Bool) (v : Word)
  /-- `RD GPIO.GPPUPPDN2` (R166) -/
  | rdGppuppdn2 (nb : Bool)
  /-- `WR GPIO.GPPUPPDN2` (R167) -/
  | wrGppuppdn2 (nb : Bool) (v : Word)
  /-- `RD GPIO.GPPUPPDN3` (R166) -/
  | rdGppuppdn3 (nb : Bool)
  /-- `WR GPIO.GPPUPPDN3` (R167) -/
  | wrGppuppdn3 (nb : Bool) (v : Word)
  /-- `RD PADS.PADS0` (R170) -/
  | rdPads0 (nb : Bool)
  /-- `WR PADS.PADS0` (R171) -/
  | wrPads0 (nb : Bool) (v : Word)
  /-- `RD PADS.PADS1` (R170) -/
  | rdPads1 (nb : Bool)
  /-- `WR PADS.PADS1` (R171) -/
  | wrPads1 (nb : Bool) (v : Word)
  /-- `RD PADS.PADS2` (R170) -/
  | rdPads2 (nb : Bool)
  /-- `WR PADS.PADS2` (R171) -/
  | wrPads2 (nb : Bool) (v : Word)
  /-- `RD ST.CLO` (R192) -/
  | rdStClo (nb : Bool)
  /-- `WR ST.CLO` (R194) -/
  | wrStClo (nb : Bool) (v : Word)
  /-- `RD ST.CHI` (R193) -/
  | rdStChi (nb : Bool)
  /-- `WR ST.CHI` (R194) -/
  | wrStChi (nb : Bool) (v : Word)
  /-- `RD SPI0.CS` (R201) -/
  | rdSpi0Cs (nb : Bool)
  /-- `WR SPI0.CS` (R202) -/
  | wrSpi0Cs (nb : Bool) (v : Word)
  /-- `RD SPI0.FIFO` (R206) -/
  | rdSpi0Fifo (nb : Bool)
  /-- `WR SPI0.FIFO` (R207) -/
  | wrSpi0Fifo (nb : Bool) (v : Word)
  /-- `RD SPI0.CLK` (R208) -/
  | rdSpi0Clk (nb : Bool)
  /-- `WR SPI0.CLK` (R209) -/
  | wrSpi0Clk (nb : Bool) (v : Word)
  /-- `RD AUX.ENB` (R232) -/
  | rdAuxEnb (nb : Bool)
  /-- `WR AUX.ENB` (R233) -/
  | wrAuxEnb (nb : Bool) (v : Word)
  /-- `RD SPI1.CNTL0` (R234) -/
  | rdSpi1Cntl0 (nb : Bool)
  /-- `WR SPI1.CNTL0` (R235) -/
  | wrSpi1Cntl0 (nb : Bool) (v : Word)
  /-- `RD SPI1.CNTL1` (R236) -/
  | rdSpi1Cntl1 (nb : Bool)
  /-- `WR SPI1.CNTL1` (R237) -/
  | wrSpi1Cntl1 (nb : Bool) (v : Word)
  /-- `RD SPI1.STAT` (R240) -/
  | rdSpi1Stat (nb : Bool)
  /-- `WR SPI1.STAT` (R241) -/
  | wrSpi1Stat (nb : Bool) (v : Word)
  /-- `RD SPI1.IO` (R244) -/
  | rdSpi1Io (nb : Bool)
  /-- `WR SPI1.IO` (R245) -/
  | wrSpi1Io (nb : Bool) (v : Word)
  /-- `RD SPI1.TXHOLD` (R246) -/
  | rdSpi1Txhold (nb : Bool)
  /-- `WR SPI1.TXHOLD` (R247) -/
  | wrSpi1Txhold (nb : Bool) (v : Word)
deriving DecidableEq, Repr

end Sys2Proof
end

