-- ==== Sys2Proof/WellFormed.lean ====
section
/-! DEFINITION. Well-formedness. A transaction's operands are bit vectors of the exact width the encoding
gives them, so what is left to check is that its register exists in the generation at hand
(spec/41_gpio.md R168), and that the parameters of R5 lie in the ranges the spec gives them. -/

namespace Sys2Proof

/-- The register of the transaction exists when `PUD_VARIANT` is `v` (R103 column "variant", R168). -/
def Instr.wf (v : PudVariant) : Instr → Bool
  | .rdGppud _ | .wrGppud _ _ | .rdGppudclk0 _ | .wrGppudclk0 _ _ | .rdGppudclk1 _ | .wrGppudclk1 _ _ => v == .legacy
  | .rdGppuppdn0 _ | .wrGppuppdn0 _ _ | .rdGppuppdn1 _ | .wrGppuppdn1 _ _ | .rdGppuppdn2 _ | .wrGppuppdn2 _ _
  | .rdGppuppdn3 _ | .wrGppuppdn3 _ _ => v == .modern
  | .rdGpfsel0 _ | .wrGpfsel0 _ _ | .rdGpfsel1 _ | .wrGpfsel1 _ _ | .rdGpfsel2 _ | .wrGpfsel2 _ _
  | .rdGpfsel3 _ | .wrGpfsel3 _ _ | .rdGpfsel4 _ | .wrGpfsel4 _ _ | .rdGpfsel5 _ | .wrGpfsel5 _ _
  | .rdGpset0 _ | .wrGpset0 _ _ | .rdGpset1 _ | .wrGpset1 _ _ | .rdGpclr0 _ | .wrGpclr0 _ _
  | .rdGpclr1 _ | .wrGpclr1 _ _ | .rdGplev0 _ | .wrGplev0 _ _ | .rdGplev1 _ | .wrGplev1 _ _
  | .rdGpeds0 _ | .wrGpeds0 _ _ | .rdGpeds1 _ | .wrGpeds1 _ _ | .rdGpren0 _ | .wrGpren0 _ _
  | .rdGpren1 _ | .wrGpren1 _ _ | .rdGpfen0 _ | .wrGpfen0 _ _ | .rdGpfen1 _ | .wrGpfen1 _ _
  | .rdGphen0 _ | .wrGphen0 _ _ | .rdGphen1 _ | .wrGphen1 _ _ | .rdGplen0 _ | .wrGplen0 _ _
  | .rdGplen1 _ | .wrGplen1 _ _ | .rdGparen0 _ | .wrGparen0 _ _ | .rdGparen1 _ | .wrGparen1 _ _
  | .rdGpafen0 _ | .wrGpafen0 _ _ | .rdGpafen1 _ | .wrGpafen1 _ _ | .rdPads0 _ | .wrPads0 _ _
  | .rdPads1 _ | .wrPads1 _ _ | .rdPads2 _ | .wrPads2 _ _ | .rdStClo _ | .wrStClo _ _
  | .rdStChi _ | .wrStChi _ _ | .rdSpi0Cs _ | .wrSpi0Cs _ _ | .rdSpi0Fifo _ | .wrSpi0Fifo _ _
  | .rdSpi0Clk _ | .wrSpi0Clk _ _ | .rdAuxEnb _ | .wrAuxEnb _ _ | .rdSpi1Cntl0 _ | .wrSpi1Cntl0 _ _
  | .rdSpi1Cntl1 _ | .wrSpi1Cntl1 _ _ | .rdSpi1Stat _ | .wrSpi1Stat _ _ | .rdSpi1Io _ | .wrSpi1Io _ _
  | .rdSpi1Txhold _ | .wrSpi1Txhold _ _ => true

/-- The eight function codes are pairwise distinct, hence every 3-bit value is the code of one mode (R105). -/
def FselCodes.wf (c : FselCodes) : Bool :=
  decide [c.input, c.output, c.alt0, c.alt1, c.alt2, c.alt3, c.alt4, c.alt5].Nodup

/-- No two bits of the register stand at one place, hence every place holds one. -/
def BitPlaces.wf (b : BitPlaces) : Bool := decide b.place.toList.Nodup

/-- Every register's bits stand at places of their own. -/
def BitLayout.wf (l : BitLayout) : Bool :=
  l.gppud.wf && l.puppdn.wf && l.pads.wf && l.cs.wf && l.fifo.wf && l.clk.wf && l.enb.wf && l.cntl0.wf && l.cntl1.wf && l.stat.wf

/-- The ranges R5 gives the parameters: depths at least 1, `T_PUD_TICKS` at most `PUD_DELAY`, pull codes
pairwise distinct, none of them the reserved code 3 and `Off` at 0 (R107, R283), the eight function codes pairwise
distinct (R105), the bits of each register at places of their own, at most as many pad groups as R103 has pad
registers, the SPI1 limits in order and the speed limit within the 12 positions of R113. The address map has a check of its own,
`AddrMap.wf` (Decode.lean). -/
def Params.wf (p : Params) : Bool :=
  decide (1 ≤ p.spi0Depth) && decide (1 ≤ p.auxDepth)
    && decide (p.tPudTicks ≤ pudDelay.toNat)
    && (p.pudCodes.off == 0) && (p.pudCodes.up != 0) && (p.pudCodes.down != 0)
    && (p.pudCodes.up != p.pudCodes.down) && (p.pudCodes.up != 3) && (p.pudCodes.down != 3)
    && p.fselCodes.wf && p.layout.wf && decide (p.padGroups.length ≤ 3)
    && decide (0 < p.auxClockMin) && decide (p.auxClockMin ≤ p.auxClockMax)
    && decide (p.auxSpeedMax ≤ 4095)

end Sys2Proof
end

