-- ==== Sys2Proof/Decode.lean ====
section
/-! DEFINITION. The decoder and the encoder of the canonical 64-bit transaction word
(spec/30_encoding.md R100 to R103, R117, R122; spec/40_register_access.md R130). The word is a number, bit
0 its least significant; no hardware bus carries it and nothing is fetched from memory (R101,
spec/20_memory.md R71). The decoder is total: every word is an instruction or is rejected by one of three
names, in the order of spec/60_exceptions.md R347. Both take the address map, a configuration value (R76). -/

namespace Sys2Proof

/-! ### The address map (R102, R103) -/

/-- Byte offset of a block from the base of the peripheral block (R102). -/
def AddrMap.baseOf (m : AddrMap) : Block → Nat
  | .gpio => m.base.gpio
  | .clock => m.base.clock
  | .pads => m.base.pads
  | .spi0 => m.base.spi0
  | .st => m.base.st
  | .aux => m.base.aux
  | .spi1 => m.base.spi1

/-- The block a register lies in (R103). -/
def Reg.block : Reg → Block
  | .gpfsel _ | .gpset _ | .gpclr _ | .gplev _ | .gpeds _ | .gpren _ | .gpfen _ | .gphen _ | .gplen _
  | .gparen _ | .gpafen _ | .gppud | .gppudclk _ | .gppuppdn _ => .gpio
  | .pads _ => .pads
  | .clo | .chi => .st
  | .cs | .fifo | .clk => .spi0
  | .enb => .aux
  | .cntl0 | .cntl1 | .stat | .io | .txhold => .spi1

/-- The word index of a register inside its block (R103 column `w`). -/
def AddrMap.indexOf (m : AddrMap) : Reg → Nat
  | .gpfsel n => m.index.gpfsel.get n
  | .gpset n => m.index.gpset.get n
  | .gpclr n => m.index.gpclr.get n
  | .gplev n => m.index.gplev.get n
  | .gpeds n => m.index.gpeds.get n
  | .gpren n => m.index.gpren.get n
  | .gpfen n => m.index.gpfen.get n
  | .gphen n => m.index.gphen.get n
  | .gplen n => m.index.gplen.get n
  | .gparen n => m.index.gparen.get n
  | .gpafen n => m.index.gpafen.get n
  | .gppud => m.index.gppud
  | .gppudclk n => m.index.gppudclk.get n
  | .gppuppdn n => m.index.gppuppdn.get n
  | .pads g => m.index.pads.get g
  | .clo => m.index.clo
  | .chi => m.index.chi
  | .cs => m.index.cs
  | .fifo => m.index.fifo
  | .clk => m.index.clk
  | .enb => m.index.enb
  | .cntl0 => m.index.cntl0
  | .cntl1 => m.index.cntl1
  | .stat => m.index.stat
  | .io => m.index.io
  | .txhold => m.index.txhold

/-- `ADDR = BASE(B) + 4*w` (R72, R103, R136). -/
def AddrMap.addr (m : AddrMap) (r : Reg) : Nat := m.baseOf r.block + 4 * m.indexOf r

/-- The registers of the `GPIO` block (R103). -/
def Reg.allGpio : List Reg :=
  [.gpfsel 0, .gpfsel 1, .gpfsel 2, .gpfsel 3, .gpfsel 4, .gpfsel 5, .gpset 0, .gpset 1, .gpclr 0, .gpclr 1,
   .gplev 0, .gplev 1, .gpeds 0, .gpeds 1, .gpren 0, .gpren 1, .gpfen 0, .gpfen 1, .gphen 0, .gphen 1,
   .gplen 0, .gplen 1, .gparen 0, .gparen 1, .gpafen 0, .gpafen 1, .gppud, .gppudclk 0, .gppudclk 1,
   .gppuppdn 0, .gppuppdn 1, .gppuppdn 2, .gppuppdn 3]

/-- The registers of the other blocks (R103); the `CLOCK` block has none (R76). -/
def Reg.allOther : List Reg :=
  [.pads 0, .pads 1, .pads 2, .clo, .chi, .cs, .fifo, .clk, .enb, .cntl0, .cntl1, .stat, .io, .txhold]

/-- The 47 registers of R103. -/
def Reg.all : List Reg :=
  Reg.allGpio ++ Reg.allOther

/-- What R76 asks of an address map, and R101 of an address: the registers have pairwise distinct byte addresses, and
each is a multiple of 4 that fits the 24-bit field. -/
def AddrMap.wf (m : AddrMap) : Bool :=
  decide (Reg.all.map m.addr).Nodup && Reg.all.all fun r => m.addr r % 4 == 0 && decide (m.addr r < 2 ^ 24)

/-- The register at a byte offset, if the address is one of R103 (R117). -/
def AddrMap.regAt (m : AddrMap) (a : Nat) : Option Reg := Reg.all.find? fun r => m.addr r == a

/-! ### Rows of the table -/

/-- The read transaction of a register. -/
def Instr.rd (nb : Bool) : Reg → Instr
  | .gpfsel n => match n with | 0 => .rdGpfsel0 nb | 1 => .rdGpfsel1 nb | 2 => .rdGpfsel2 nb | 3 => .rdGpfsel3 nb | 4 => .rdGpfsel4 nb | 5 => .rdGpfsel5 nb
  | .gpset n => match n with | 0 => .rdGpset0 nb | 1 => .rdGpset1 nb
  | .gpclr n => match n with | 0 => .rdGpclr0 nb | 1 => .rdGpclr1 nb
  | .gplev n => match n with | 0 => .rdGplev0 nb | 1 => .rdGplev1 nb
  | .gpeds n => match n with | 0 => .rdGpeds0 nb | 1 => .rdGpeds1 nb
  | .gpren n => match n with | 0 => .rdGpren0 nb | 1 => .rdGpren1 nb
  | .gpfen n => match n with | 0 => .rdGpfen0 nb | 1 => .rdGpfen1 nb
  | .gphen n => match n with | 0 => .rdGphen0 nb | 1 => .rdGphen1 nb
  | .gplen n => match n with | 0 => .rdGplen0 nb | 1 => .rdGplen1 nb
  | .gparen n => match n with | 0 => .rdGparen0 nb | 1 => .rdGparen1 nb
  | .gpafen n => match n with | 0 => .rdGpafen0 nb | 1 => .rdGpafen1 nb
  | .gppud => .rdGppud nb
  | .gppudclk n => match n with | 0 => .rdGppudclk0 nb | 1 => .rdGppudclk1 nb
  | .gppuppdn n => match n with | 0 => .rdGppuppdn0 nb | 1 => .rdGppuppdn1 nb | 2 => .rdGppuppdn2 nb | 3 => .rdGppuppdn3 nb
  | .pads n => match n with | 0 => .rdPads0 nb | 1 => .rdPads1 nb | 2 => .rdPads2 nb
  | .clo => .rdStClo nb
  | .chi => .rdStChi nb
  | .cs => .rdSpi0Cs nb
  | .fifo => .rdSpi0Fifo nb
  | .clk => .rdSpi0Clk nb
  | .enb => .rdAuxEnb nb
  | .cntl0 => .rdSpi1Cntl0 nb
  | .cntl1 => .rdSpi1Cntl1 nb
  | .stat => .rdSpi1Stat nb
  | .io => .rdSpi1Io nb
  | .txhold => .rdSpi1Txhold nb

/-- The write transaction of a register. -/
def Instr.wr (nb : Bool) (v : Word) : Reg → Instr
  | .gpfsel n => match n with | 0 => .wrGpfsel0 nb v | 1 => .wrGpfsel1 nb v | 2 => .wrGpfsel2 nb v | 3 => .wrGpfsel3 nb v | 4 => .wrGpfsel4 nb v | 5 => .wrGpfsel5 nb v
  | .gpset n => match n with | 0 => .wrGpset0 nb v | 1 => .wrGpset1 nb v
  | .gpclr n => match n with | 0 => .wrGpclr0 nb v | 1 => .wrGpclr1 nb v
  | .gplev n => match n with | 0 => .wrGplev0 nb v | 1 => .wrGplev1 nb v
  | .gpeds n => match n with | 0 => .wrGpeds0 nb v | 1 => .wrGpeds1 nb v
  | .gpren n => match n with | 0 => .wrGpren0 nb v | 1 => .wrGpren1 nb v
  | .gpfen n => match n with | 0 => .wrGpfen0 nb v | 1 => .wrGpfen1 nb v
  | .gphen n => match n with | 0 => .wrGphen0 nb v | 1 => .wrGphen1 nb v
  | .gplen n => match n with | 0 => .wrGplen0 nb v | 1 => .wrGplen1 nb v
  | .gparen n => match n with | 0 => .wrGparen0 nb v | 1 => .wrGparen1 nb v
  | .gpafen n => match n with | 0 => .wrGpafen0 nb v | 1 => .wrGpafen1 nb v
  | .gppud => .wrGppud nb v
  | .gppudclk n => match n with | 0 => .wrGppudclk0 nb v | 1 => .wrGppudclk1 nb v
  | .gppuppdn n => match n with | 0 => .wrGppuppdn0 nb v | 1 => .wrGppuppdn1 nb v | 2 => .wrGppuppdn2 nb v | 3 => .wrGppuppdn3 nb v
  | .pads n => match n with | 0 => .wrPads0 nb v | 1 => .wrPads1 nb v | 2 => .wrPads2 nb v
  | .clo => .wrStClo nb v
  | .chi => .wrStChi nb v
  | .cs => .wrSpi0Cs nb v
  | .fifo => .wrSpi0Fifo nb v
  | .clk => .wrSpi0Clk nb v
  | .enb => .wrAuxEnb nb v
  | .cntl0 => .wrSpi1Cntl0 nb v
  | .cntl1 => .wrSpi1Cntl1 nb v
  | .stat => .wrSpi1Stat nb v
  | .io => .wrSpi1Io nb v
  | .txhold => .wrSpi1Txhold nb v

/-- The register a transaction names. -/
def Instr.reg : Instr → Reg
  | .rdGpfsel0 _ => .gpfsel 0
  | .wrGpfsel0 _ _ => .gpfsel 0
  | .rdGpfsel1 _ => .gpfsel 1
  | .wrGpfsel1 _ _ => .gpfsel 1
  | .rdGpfsel2 _ => .gpfsel 2
  | .wrGpfsel2 _ _ => .gpfsel 2
  | .rdGpfsel3 _ => .gpfsel 3
  | .wrGpfsel3 _ _ => .gpfsel 3
  | .rdGpfsel4 _ => .gpfsel 4
  | .wrGpfsel4 _ _ => .gpfsel 4
  | .rdGpfsel5 _ => .gpfsel 5
  | .wrGpfsel5 _ _ => .gpfsel 5
  | .rdGpset0 _ => .gpset 0
  | .wrGpset0 _ _ => .gpset 0
  | .rdGpset1 _ => .gpset 1
  | .wrGpset1 _ _ => .gpset 1
  | .rdGpclr0 _ => .gpclr 0
  | .wrGpclr0 _ _ => .gpclr 0
  | .rdGpclr1 _ => .gpclr 1
  | .wrGpclr1 _ _ => .gpclr 1
  | .rdGplev0 _ => .gplev 0
  | .wrGplev0 _ _ => .gplev 0
  | .rdGplev1 _ => .gplev 1
  | .wrGplev1 _ _ => .gplev 1
  | .rdGpeds0 _ => .gpeds 0
  | .wrGpeds0 _ _ => .gpeds 0
  | .rdGpeds1 _ => .gpeds 1
  | .wrGpeds1 _ _ => .gpeds 1
  | .rdGpren0 _ => .gpren 0
  | .wrGpren0 _ _ => .gpren 0
  | .rdGpren1 _ => .gpren 1
  | .wrGpren1 _ _ => .gpren 1
  | .rdGpfen0 _ => .gpfen 0
  | .wrGpfen0 _ _ => .gpfen 0
  | .rdGpfen1 _ => .gpfen 1
  | .wrGpfen1 _ _ => .gpfen 1
  | .rdGphen0 _ => .gphen 0
  | .wrGphen0 _ _ => .gphen 0
  | .rdGphen1 _ => .gphen 1
  | .wrGphen1 _ _ => .gphen 1
  | .rdGplen0 _ => .gplen 0
  | .wrGplen0 _ _ => .gplen 0
  | .rdGplen1 _ => .gplen 1
  | .wrGplen1 _ _ => .gplen 1
  | .rdGparen0 _ => .gparen 0
  | .wrGparen0 _ _ => .gparen 0
  | .rdGparen1 _ => .gparen 1
  | .wrGparen1 _ _ => .gparen 1
  | .rdGpafen0 _ => .gpafen 0
  | .wrGpafen0 _ _ => .gpafen 0
  | .rdGpafen1 _ => .gpafen 1
  | .wrGpafen1 _ _ => .gpafen 1
  | .rdGppud _ => .gppud
  | .wrGppud _ _ => .gppud
  | .rdGppudclk0 _ => .gppudclk 0
  | .wrGppudclk0 _ _ => .gppudclk 0
  | .rdGppudclk1 _ => .gppudclk 1
  | .wrGppudclk1 _ _ => .gppudclk 1
  | .rdGppuppdn0 _ => .gppuppdn 0
  | .wrGppuppdn0 _ _ => .gppuppdn 0
  | .rdGppuppdn1 _ => .gppuppdn 1
  | .wrGppuppdn1 _ _ => .gppuppdn 1
  | .rdGppuppdn2 _ => .gppuppdn 2
  | .wrGppuppdn2 _ _ => .gppuppdn 2
  | .rdGppuppdn3 _ => .gppuppdn 3
  | .wrGppuppdn3 _ _ => .gppuppdn 3
  | .rdPads0 _ => .pads 0
  | .wrPads0 _ _ => .pads 0
  | .rdPads1 _ => .pads 1
  | .wrPads1 _ _ => .pads 1
  | .rdPads2 _ => .pads 2
  | .wrPads2 _ _ => .pads 2
  | .rdStClo _ => .clo
  | .wrStClo _ _ => .clo
  | .rdStChi _ => .chi
  | .wrStChi _ _ => .chi
  | .rdSpi0Cs _ => .cs
  | .wrSpi0Cs _ _ => .cs
  | .rdSpi0Fifo _ => .fifo
  | .wrSpi0Fifo _ _ => .fifo
  | .rdSpi0Clk _ => .clk
  | .wrSpi0Clk _ _ => .clk
  | .rdAuxEnb _ => .enb
  | .wrAuxEnb _ _ => .enb
  | .rdSpi1Cntl0 _ => .cntl0
  | .wrSpi1Cntl0 _ _ => .cntl0
  | .rdSpi1Cntl1 _ => .cntl1
  | .wrSpi1Cntl1 _ _ => .cntl1
  | .rdSpi1Stat _ => .stat
  | .wrSpi1Stat _ _ => .stat
  | .rdSpi1Io _ => .io
  | .wrSpi1Io _ _ => .io
  | .rdSpi1Txhold _ => .txhold
  | .wrSpi1Txhold _ _ => .txhold

/-- `W`: the transaction writes (R100). -/
def Instr.isWrite : Instr → Bool
  | .rdGpfsel0 _ | .rdGpfsel1 _ | .rdGpfsel2 _ | .rdGpfsel3 _ | .rdGpfsel4 _ | .rdGpfsel5 _
  | .rdGpset0 _ | .rdGpset1 _ | .rdGpclr0 _ | .rdGpclr1 _ | .rdGplev0 _ | .rdGplev1 _
  | .rdGpeds0 _ | .rdGpeds1 _ | .rdGpren0 _ | .rdGpren1 _ | .rdGpfen0 _ | .rdGpfen1 _
  | .rdGphen0 _ | .rdGphen1 _ | .rdGplen0 _ | .rdGplen1 _ | .rdGparen0 _ | .rdGparen1 _
  | .rdGpafen0 _ | .rdGpafen1 _ | .rdGppud _ | .rdGppudclk0 _ | .rdGppudclk1 _ | .rdGppuppdn0 _
  | .rdGppuppdn1 _ | .rdGppuppdn2 _ | .rdGppuppdn3 _ | .rdPads0 _ | .rdPads1 _ | .rdPads2 _
  | .rdStClo _ | .rdStChi _ | .rdSpi0Cs _ | .rdSpi0Fifo _ | .rdSpi0Clk _ | .rdAuxEnb _
  | .rdSpi1Cntl0 _ | .rdSpi1Cntl1 _ | .rdSpi1Stat _ | .rdSpi1Io _ | .rdSpi1Txhold _ => false
  | .wrGpfsel0 _ _ | .wrGpfsel1 _ _ | .wrGpfsel2 _ _ | .wrGpfsel3 _ _ | .wrGpfsel4 _ _ | .wrGpfsel5 _ _
  | .wrGpset0 _ _ | .wrGpset1 _ _ | .wrGpclr0 _ _ | .wrGpclr1 _ _ | .wrGplev0 _ _ | .wrGplev1 _ _
  | .wrGpeds0 _ _ | .wrGpeds1 _ _ | .wrGpren0 _ _ | .wrGpren1 _ _ | .wrGpfen0 _ _ | .wrGpfen1 _ _
  | .wrGphen0 _ _ | .wrGphen1 _ _ | .wrGplen0 _ _ | .wrGplen1 _ _ | .wrGparen0 _ _ | .wrGparen1 _ _
  | .wrGpafen0 _ _ | .wrGpafen1 _ _ | .wrGppud _ _ | .wrGppudclk0 _ _ | .wrGppudclk1 _ _ | .wrGppuppdn0 _ _
  | .wrGppuppdn1 _ _ | .wrGppuppdn2 _ _ | .wrGppuppdn3 _ _ | .wrPads0 _ _ | .wrPads1 _ _ | .wrPads2 _ _
  | .wrStClo _ _ | .wrStChi _ _ | .wrSpi0Cs _ _ | .wrSpi0Fifo _ _ | .wrSpi0Clk _ _ | .wrAuxEnb _ _
  | .wrSpi1Cntl0 _ _ | .wrSpi1Cntl1 _ _ | .wrSpi1Stat _ _ | .wrSpi1Io _ _ | .wrSpi1Txhold _ _ => true

/-- `NB`: the transaction is non-barriered (R100). -/
def Instr.nb : Instr → Bool
  | .rdGpfsel0 nb | .rdGpfsel1 nb | .rdGpfsel2 nb | .rdGpfsel3 nb | .rdGpfsel4 nb | .rdGpfsel5 nb
  | .rdGpset0 nb | .rdGpset1 nb | .rdGpclr0 nb | .rdGpclr1 nb | .rdGplev0 nb | .rdGplev1 nb
  | .rdGpeds0 nb | .rdGpeds1 nb | .rdGpren0 nb | .rdGpren1 nb | .rdGpfen0 nb | .rdGpfen1 nb
  | .rdGphen0 nb | .rdGphen1 nb | .rdGplen0 nb | .rdGplen1 nb | .rdGparen0 nb | .rdGparen1 nb
  | .rdGpafen0 nb | .rdGpafen1 nb | .rdGppud nb | .rdGppudclk0 nb | .rdGppudclk1 nb | .rdGppuppdn0 nb
  | .rdGppuppdn1 nb | .rdGppuppdn2 nb | .rdGppuppdn3 nb | .rdPads0 nb | .rdPads1 nb | .rdPads2 nb
  | .rdStClo nb | .rdStChi nb | .rdSpi0Cs nb | .rdSpi0Fifo nb | .rdSpi0Clk nb | .rdAuxEnb nb
  | .rdSpi1Cntl0 nb | .rdSpi1Cntl1 nb | .rdSpi1Stat nb | .rdSpi1Io nb | .rdSpi1Txhold nb => nb
  | .wrGpfsel0 nb _ | .wrGpfsel1 nb _ | .wrGpfsel2 nb _ | .wrGpfsel3 nb _ | .wrGpfsel4 nb _ | .wrGpfsel5 nb _
  | .wrGpset0 nb _ | .wrGpset1 nb _ | .wrGpclr0 nb _ | .wrGpclr1 nb _ | .wrGplev0 nb _ | .wrGplev1 nb _
  | .wrGpeds0 nb _ | .wrGpeds1 nb _ | .wrGpren0 nb _ | .wrGpren1 nb _ | .wrGpfen0 nb _ | .wrGpfen1 nb _
  | .wrGphen0 nb _ | .wrGphen1 nb _ | .wrGplen0 nb _ | .wrGplen1 nb _ | .wrGparen0 nb _ | .wrGparen1 nb _
  | .wrGpafen0 nb _ | .wrGpafen1 nb _ | .wrGppud nb _ | .wrGppudclk0 nb _ | .wrGppudclk1 nb _ | .wrGppuppdn0 nb _
  | .wrGppuppdn1 nb _ | .wrGppuppdn2 nb _ | .wrGppuppdn3 nb _ | .wrPads0 nb _ | .wrPads1 nb _ | .wrPads2 nb _
  | .wrStClo nb _ | .wrStChi nb _ | .wrSpi0Cs nb _ | .wrSpi0Fifo nb _ | .wrSpi0Clk nb _ | .wrAuxEnb nb _
  | .wrSpi1Cntl0 nb _ | .wrSpi1Cntl1 nb _ | .wrSpi1Stat nb _ | .wrSpi1Io nb _ | .wrSpi1Txhold nb _ => nb

/-- `DATA`: the value written; absent, hence 0, on a read (R100, R101). -/
def Instr.data : Instr → Word
  | .rdGpfsel0 _ | .rdGpfsel1 _ | .rdGpfsel2 _ | .rdGpfsel3 _ | .rdGpfsel4 _ | .rdGpfsel5 _
  | .rdGpset0 _ | .rdGpset1 _ | .rdGpclr0 _ | .rdGpclr1 _ | .rdGplev0 _ | .rdGplev1 _
  | .rdGpeds0 _ | .rdGpeds1 _ | .rdGpren0 _ | .rdGpren1 _ | .rdGpfen0 _ | .rdGpfen1 _
  | .rdGphen0 _ | .rdGphen1 _ | .rdGplen0 _ | .rdGplen1 _ | .rdGparen0 _ | .rdGparen1 _
  | .rdGpafen0 _ | .rdGpafen1 _ | .rdGppud _ | .rdGppudclk0 _ | .rdGppudclk1 _ | .rdGppuppdn0 _
  | .rdGppuppdn1 _ | .rdGppuppdn2 _ | .rdGppuppdn3 _ | .rdPads0 _ | .rdPads1 _ | .rdPads2 _
  | .rdStClo _ | .rdStChi _ | .rdSpi0Cs _ | .rdSpi0Fifo _ | .rdSpi0Clk _ | .rdAuxEnb _
  | .rdSpi1Cntl0 _ | .rdSpi1Cntl1 _ | .rdSpi1Stat _ | .rdSpi1Io _ | .rdSpi1Txhold _ => 0
  | .wrGpfsel0 _ v | .wrGpfsel1 _ v | .wrGpfsel2 _ v | .wrGpfsel3 _ v | .wrGpfsel4 _ v | .wrGpfsel5 _ v
  | .wrGpset0 _ v | .wrGpset1 _ v | .wrGpclr0 _ v | .wrGpclr1 _ v | .wrGplev0 _ v | .wrGplev1 _ v
  | .wrGpeds0 _ v | .wrGpeds1 _ v | .wrGpren0 _ v | .wrGpren1 _ v | .wrGpfen0 _ v | .wrGpfen1 _ v
  | .wrGphen0 _ v | .wrGphen1 _ v | .wrGplen0 _ v | .wrGplen1 _ v | .wrGparen0 _ v | .wrGparen1 _ v
  | .wrGpafen0 _ v | .wrGpafen1 _ v | .wrGppud _ v | .wrGppudclk0 _ v | .wrGppudclk1 _ v | .wrGppuppdn0 _ v
  | .wrGppuppdn1 _ v | .wrGppuppdn2 _ v | .wrGppuppdn3 _ v | .wrPads0 _ v | .wrPads1 _ v | .wrPads2 _ v
  | .wrStClo _ v | .wrStChi _ v | .wrSpi0Cs _ v | .wrSpi0Fifo _ v | .wrSpi0Clk _ v | .wrAuxEnb _ v
  | .wrSpi1Cntl0 _ v | .wrSpi1Cntl1 _ v | .wrSpi1Stat _ v | .wrSpi1Io _ v | .wrSpi1Txhold _ v => v

/-! ### The canonical word (R101) -/

/-- Field `W`, bit 63. -/
def TWord.isWrite (w : TWord) : Bool := w.getLsbD 63

/-- Field `NB`, bit 62. -/
def TWord.nb (w : TWord) : Bool := w.getLsbD 62

/-- Bits 61:56, which must be 0. -/
def TWord.zero (w : TWord) : BitVec 6 := w.extractLsb' 56 6

/-- Field `ADDR`, bits 55:32. -/
def TWord.addr (w : TWord) : BitVec 24 := w.extractLsb' 32 24

/-- Field `DATA`, bits 31:0. -/
def TWord.data (w : TWord) : Word := w.extractLsb' 0 32

/-- The fields of R101 as one word. -/
def TWord.pack (write nb : Bool) (addr : BitVec 24) (data : Word) : TWord :=
  BitVec.cons write (BitVec.cons nb ((0#6 ++ addr) ++ data))

/-- Why a word is no instruction (R101, R117; R342 rows 1 to 3). -/
inductive DecodeError where
  /-- bits 61:56 not 0, or `DATA` not 0 on a read -/
  | malformed
  /-- `ADDR` not a multiple of 4 -/
  | misaligned
  /-- `ADDR` is no address of R103 -/
  | unknownRegister
deriving DecidableEq, Repr

/-- The decoder (R101, R117, R130 line `decode`; the order of the checks is R347's). Which registers exist in
the current `PUD_VARIANT` does not change how a word is decoded (R119): that check is the meaning's. -/
def decode (m : AddrMap) (w : TWord) : Except DecodeError Instr :=
  if w.zero ≠ 0 ∨ (w.isWrite = false ∧ w.data ≠ 0) then .error .malformed
  else if w.addr.toNat % 4 ≠ 0 then .error .misaligned
  else match m.regAt w.addr.toNat with
    | none => .error .unknownRegister
    | some r => .ok (if w.isWrite then Instr.wr w.nb w.data r else Instr.rd w.nb r)

/-- The encoder: the canonical word of an instruction (R101, R103). -/
def encode (m : AddrMap) (i : Instr) : TWord :=
  TWord.pack i.isWrite i.nb (BitVec.ofNat 24 (m.addr i.reg)) i.data

/-- The word whose low `nbits` bits are `w`, every bit above them 0 (every row of the table has 64 bits). -/
def tableWord (nbits w : Nat) : TWord := BitVec.ofNat 64 (w % 2 ^ nbits)

/-- What the decoder reads from a row of spec/opcode_table.json whose bits are `w`, under the map of that table. -/
def decodeTableWord (nbits w : Nat) : Option Instr :=
  match decode .table (tableWord nbits w) with
  | .ok i => some i
  | .error _ => none

end Sys2Proof
end

