-- ==== Sys2Proof/Machine/Calls.lean ====
section
/-! DEFINITION. The host's side of the bus as plain data: the pseudo-instructions of
spec/45_sequences_gpio_timer.md and spec/46_sequences_spi.md (`Call`), what they answer, and the small
operations (`HostOp`, `ReadCont`) into which a call unfolds while it runs. A `HostOp` issues at most one
bus transaction, so that other agents can step between any two transactions of a sequence
(spec/20_memory.md R83). What they do is in Machine/Sequences.lean and Machine/HostStep.lean. -/

namespace Sys2Proof.Machine

/-- `BITORDER` (R46, R307). -/
inductive BitOrder where
  | msbFirst
  | lsbFirst
deriving DecidableEq, Repr, Inhabited

/-- The six event detectors of a pin (R26, R278). -/
inductive EventKind where
  | rising
  | falling
  | high
  | low
  | asyncRising
  | asyncFalling
deriving DecidableEq, Repr, Inhabited

/-- Which of the seven handles `H[B]` are mapped (R46). -/
structure Handles where
  gpio : Bool
  clock : Bool
  pads : Bool
  spi0 : Bool
  st : Bool
  aux : Bool
  spi1 : Bool
deriving DecidableEq, Repr, Inhabited

/-- What `get_pull` answers (R285, R286). -/
inductive PullAnswer where
  | off
  | pullUp
  | pullDown
  | error
deriving DecidableEq, Repr, Inhabited

/-- The result of a pseudo-instruction. -/
inductive Answer where
  /-- no result -/
  | none
  /-- `success` of `init`, `close` -/
  | success
  /-- `init` could not resolve every handle -/
  | failure
  /-- `High` (true) or `Low` of `read_level` -/
  | level (b : Bool)
  /-- `event_detected` -/
  | flag (b : Bool)
  /-- `get_pad_control` -/
  | word (v : Word)
  /-- `read_counter` -/
  | count (v : BitVec 64)
  /-- `get_pull` -/
  | pull (a : PullAnswer)
  /-- `spi0_transfer`, `aux_transfer`, `bit_reverse`, `order` -/
  | byte (b : Byte)
  /-- the receive buffer of the buffered transfers -/
  | bytes (bs : List Byte)
  /-- `aux_calc_divider` -/
  | speed (n : Nat)
deriving DecidableEq, Repr, Inhabited

/-- The pseudo-instructions (R121, R134, R270 to R288, R290 to R292, R300 to R323, R330, R331). An operand has the type
of the values its rule lists, so a value outside them is no call at all: so for `select_function` with a mode outside the
eight, which U23 lists as out of range and for which neither U23 nor R342 names a refusal. DESIGN CHOICE (assumption log
entry 32). -/
inductive Call where
  | setBits (nb : Bool) (r : Reg) (value mask : Word)
  | init (resolved : Handles)
  | close
  | selectFunction (pin : Nat) (mode : FunSel)
  | write (pin : Nat) (level : Bool)
  | writeMask (value mask : Word)
  | readLevel (pin : Nat)
  | eventEnable (e : EventKind) (pin : Nat)
  | eventDisable (e : EventKind) (pin : Nat)
  | eventDetected (pin : Nat)
  | clearEvent (pin : Nat)
  | getPadControl (group : Nat)
  | setPadControl (group : Nat) (bits : Word)
  /-- `none` stands for a mode outside {`Off`, `Up`, `Down`} -/
  | setPull (pin : Nat) (mode : Option Pull)
  | getPull (pin : Nat)
  | pud (mode : Pull)
  | pudclk (pin : Nat) (on : Bool)
  | readCounter
  | delayMicros (offset duration : BitVec 64)
  | delay (duration : BitVec 64)
  | spi0Begin
  | spi0End
  | spi0SetSpeedHz (hz : Nat)
  | spi0SetDivider (d : Nat)
  | spi0SetMode (m : BitVec 2)
  | spi0ChipSelect (c : BitVec 2)
  | spi0SetCsPolarity (c : Fin 3) (active : Bool)
  | setBitOrder (o : BitOrder)
  | spi0Transfer (b : Byte)
  | spi0TransferBuf (tx : List Byte)
  | spi0WriteBuf (tx : List Byte)
  | auxBegin
  | auxReset
  | auxCalcDivider (hz : Nat)
  | auxSetDivider (speed : Nat)
  | auxWrite16 (data : BitVec 16)
  | auxWriteBuf (tx : List Byte)
  | auxTransferBuf (tx : List Byte)
  | auxTransfer (b : Byte)
  | bitReverse (b : Byte)
  | order (b : Byte)
deriving DecidableEq, Repr

/-- What a sequence does with the value a read returned. In the transfer loops `tx` is what is still to
be pushed and `rx` counts what is still to be received. -/
inductive ReadCont where
  /-- drop the value -/
  | discard
  /-- second half of `set_bits`: write back with `mask` replaced (R134) -/
  | setBits (nb : Bool) (r : Reg) (value mask : Word)
  /-- answer `High` when a bit of `mask` is set (R277) -/
  | level (mask : Word)
  /-- answer whether a bit of `mask` is set (R279) -/
  | flag (mask : Word)
  /-- answer the value (R281) -/
  | word
  /-- answer the pull field at a shift (R286) -/
  | pull (shift : Nat)
  /-- a busy-wait: poll again while "some bit of `mask` is set" is not `want` -/
  | poll (nb : Bool) (r : Reg) (mask : Word) (want : Bool)
  /-- `read_counter` (R290): `hi1` read -/
  | counterHi1
  /-- `lo` read -/
  | counterLo (hi1 : Word)
  /-- `hi2` read -/
  | counterHi2 (hi1 lo : Word)
  /-- `lo2` read -/
  | counterLo2 (hi2 : Word)
  /-- keep `order` of the byte read from `SPI0.FIFO` for the answer (R308) -/
  | fifoByte
  /-- keep `order` of the low byte for the answer (R323) -/
  | saveByte
  /-- `spi0_transfer_buf`, `TXD` poll of the fill loop (R309) -/
  | spi0Fill (tx : List Byte) (rx : Nat)
  /-- `spi0_transfer_buf`, `RXD` poll of the drain loop (R309) -/
  | spi0Drain (tx : List Byte) (rx : Nat)
  /-- `spi0_transfer_buf`, a received byte (R309) -/
  | spi0Pop (tx : List Byte) (rx : Nat)
  /-- `spi0_write_buf`, `RXD` poll of a discarding loop (R310) -/
  | spi0Flush
  /-- `spi0_write_buf`, `DONE` poll (R310) -/
  | spi0Done
  /-- `aux_transfer_buf`, `TX_FULL` poll of the fill loop (R322) -/
  | auxFill (tx : List Byte) (rx : Nat)
  /-- `aux_transfer_buf`, `RX_EMPTY` poll of the drain loop (R322) -/
  | auxDrain (tx : List Byte) (rx : Nat)
  /-- `aux_transfer_buf`, `BUSY` poll of the third loop (R322) -/
  | auxIdle (tx : List Byte) (rx : Nat)
  /-- `aux_transfer_buf`, `unpack()`; `idle` says which loop it belongs to (R322) -/
  | auxUnpack (tx : List Byte) (rx : Nat) (idle : Bool)
deriving DecidableEq, Repr

/-- One operation of the host's program; each takes one `HOST` step. -/
inductive HostOp where
  /-- a raw canonical transaction word (R101) -/
  | word (w : TWord)
  /-- `MemRead(addr, size)` or `MemWrite(addr, size, v)` at a byte offset (R8, R74) -/
  | access (write nb : Bool) (addr size : Nat) (v : Word)
  /-- the start of a pseudo-instruction -/
  | call (c : Call)
  /-- `RD r`, then the continuation on its value -/
  | rd (nb : Bool) (r : Reg) (k : ReadCont)
  /-- `WR r, v` -/
  | wr (nb : Bool) (r : Reg) (v : Word)
  /-- set the answer of the call -/
  | answer (a : Answer)
  /-- answer the last `read_counter` result -/
  | answerCount
  /-- answer the receive buffer -/
  | answerRx
  /-- answer the first byte of the receive buffer -/
  | answerRxByte
  /-- the blocking sleep of the hybrid delay (R60, R292) -/
  | sleep (d : Nat)
  /-- `read_counter()` (R290) -/
  | readCounter
  /-- `delay_micros`: the test of the loop, after a `read_counter` (R291) -/
  | delayCheck (target : BitVec 64)
  /-- `delay`, after its first `read_counter` (R292) -/
  | delayStart (duration : BitVec 64)
  /-- `spi0_transfer_buf`, the outer loop's test (R309) -/
  | spi0Loop (tx : List Byte) (rx : Nat)
  /-- `spi0_transfer_buf`, the fill loop's count test (R309) -/
  | spi0Fill (tx : List Byte) (rx : Nat)
  /-- `spi0_transfer_buf`, a push (R309) -/
  | spi0Push (b : Byte) (tx : List Byte) (rx : Nat)
  /-- `spi0_transfer_buf`, the drain loop's count test (R309) -/
  | spi0Drain (tx : List Byte) (rx : Nat)
  /-- `aux_transfer_buf`, the outer loop's test (R322) -/
  | auxLoop (tx : List Byte) (rx : Nat)
  /-- `aux_transfer_buf`, the fill loop's count test (R322) -/
  | auxFill (tx : List Byte) (rx : Nat)
  /-- `aux_transfer_buf`, one group queued (R322) -/
  | auxPush (group : List Byte) (tx : List Byte) (rx : Nat)
  /-- `aux_transfer_buf`, the drain loop's count test (R322) -/
  | auxDrain (tx : List Byte) (rx : Nat)
  /-- `aux_transfer_buf`, the third loop's count test (R322) -/
  | auxIdle (tx : List Byte) (rx : Nat)
deriving DecidableEq, Repr

end Sys2Proof.Machine
end

