-- ==== Sys2Proof/Machine/State.lean ====
section
/-! DEFINITION. The state of the machine as plain data (spec/10_state.md), the reasons a step can stop
(spec/60_exceptions.md R341, R342) and the state after reset. The block has no register file, no program
counter and no memory (R20, R21, spec/20_memory.md R71): every register is a field below, and the
instructions it receives are the operations the host issues. -/

namespace Sys2Proof.Machine

/-- The faults of R341: behaviour the source calls undefined or says "will fault". The run ends. -/
inductive Fault where
  /-- Raised by any `RD` or `WR` to block `now` while a non-barriered run to another block `pending` is open
  (R80). Safe: hardware goes on, the model stops. -/
  | crossBlockWithoutBarrier (pending now : Block)
  /-- Raised at the start of a pseudo-instruction that would dereference the unmapped handle of block `b`
  (R272, R344). Safe: the source says it "will fault". -/
  | unmappedAccess (b : Block)
deriving DecidableEq, Repr

/-- The refusals of R342: an operation to which no source gives a meaning. All are safe: the model stops
where hardware has some behaviour. -/
inductive Refusal where
  /-- Raised by `exec` for an instruction without a meaning; none is left. Safe. -/
  | notModelled (mnemonic : String)
  /-- Decode: bits 61:56 not 0, or `DATA` not 0 on a read (R101). Safe. -/
  | malformedTransaction
  /-- Decode and narrow accesses: not a naturally aligned 32-bit access (R74, R101). Safe. -/
  | narrowOrMisalignedAccess
  /-- Decode, or the meaning of a pull register of the other variant (R117, R168). Safe. -/
  | unknownRegister
  /-- Any access to an `SPI1` register while `AUX.ENB.SPI1 = 0` (R231). Safe. -/
  | spi1Disabled
  /-- `WR GPIO.GPPUD` with code 3 (R163). Safe. -/
  | reservedPullCode
  /-- `WR SPI0.CS` with chip-select 3 (R202). Safe. -/
  | reservedChipSelect
  /-- `WR SPI0.CS` or `WR SPI0.CLK` changing the configuration while `TA` stays 1 (R202, R209). Safe. -/
  | configChangeDuringTransfer
  /-- `WR SPI0.FIFO` with `TA = 0` (R207). Safe. -/
  | fifoWriteWhileIdle
  /-- A push on a full transmit FIFO of either bus (R207, R245, R247). Safe. -/
  | txFifoOverflow
  /-- A push on SPI1 while `CLEARFIFO = 1` (R245, R247). Safe. -/
  | spi1WriteWhileCleared
  /-- An enabled engine step with an unnamed control bit set (R118, R214, R252). Safe. -/
  | unmodelledControlBit
  /-- An SPI1 engine step with `MSBF_OUT = 0` or `MSBF_IN = 0` (R248, R249, R252). Safe. -/
  | unmodelledBitOrder
  /-- An SPI1 engine step with a length outside R116. Safe. -/
  | unmodelledShiftLength
  /-- `WR ST.CLO`, `WR ST.CHI` (R194). Safe. -/
  | timerWrite
  /-- `WR SPI1.STAT` (R241). Safe. -/
  | statusWrite
  /-- A pseudo-instruction called with a pin above 53 (R273). Safe. -/
  | pinOutOfRange
  /-- A pad pseudo-instruction called with a group above 2 (R273). Safe. -/
  | padGroupOutOfRange
  /-- Legacy `set_pull` with a mode outside the three (R283). Safe. -/
  | invalidPullMode
  /-- `spi0_set_speed_hz(0)` (R302). Safe. -/
  | zeroFrequency
deriving DecidableEq, Repr

/-- `ARM[p]`: the arming record of the Legacy pull latch of a pin (R31). -/
inductive Arm where
  | none
  /-- `armed(mode, t, ok)` -/
  | armed (mode : BitVec 2) (t : BitVec 64) (ok : Bool)
  | latched
deriving DecidableEq, Repr, Inhabited

/-- The GPIO block (R23 to R31). -/
@[ext]
structure Gpio where
  /-- `FSEL[p]` (R23) -/
  fsel : Vector FunSel numPins
  /-- `OUT[p]` (R24) -/
  out : PinBits
  /-- `REN[p]`, rising-edge enable (R26) -/
  ren : PinBits
  /-- `FEN[p]`, falling-edge enable (R26) -/
  fen : PinBits
  /-- `HEN[p]`, high-level enable (R26) -/
  hen : PinBits
  /-- `LEN[p]`, low-level enable (R26) -/
  len : PinBits
  /-- `AREN[p]`, asynchronous rising-edge enable (R26) -/
  aren : PinBits
  /-- `AFEN[p]`, asynchronous falling-edge enable (R26) -/
  afen : PinBits
  /-- `EDS[p]`, latched event status (R27) -/
  eds : PinBits
  /-- `PREV[p]`, the level at the previous sample (R28) -/
  prev : PinBits
  /-- `PUD`, Legacy (R29) -/
  pud : BitVec 2
  /-- `PUDCLK[p]`, Legacy (R29) -/
  pudclk : PinBits
  /-- `PULL[p]`, Legacy, hidden (R30) -/
  pull : Vector Pull numPins
  /-- `PUPPDN[p]`, Modern (R30) -/
  puppdn : Vector (BitVec 2) numPins
  /-- `ARM[p]`, Legacy, hidden (R31) -/
  arm : Vector Arm numPins
  /-- `PUD_T`, Legacy, hidden (R31) -/
  pudT : BitVec 64
  /-- the model's own: `GPPUD` was written since reset, so that `PUD_T` is known (R31) -/
  pudSeen : Bool
deriving DecidableEq, Repr

/-- The primary SPI (R34 to R36). -/
@[ext]
structure Spi0 where
  /-- `CS`, the chip-select line chosen -/
  cs : BitVec 2
  cpha : Bool
  cpol : Bool
  /-- `TA`, transfer active -/
  ta : Bool
  cspol0 : Bool
  cspol1 : Bool
  cspol2 : Bool
  /-- `CS_OTHER`: register bits 25:24, 15:8 and 6, in that order -/
  csOther : BitVec 11
  /-- `CDIV` (R35) -/
  cdiv : BitVec 16
  /-- `TXQ0`, oldest first (R36) -/
  txq : List Byte
  /-- `RXQ0`, oldest first (R36) -/
  rxq : List Byte
deriving DecidableEq, Repr

/-- The auxiliary enable register (R40). -/
@[ext]
structure Aux where
  /-- `AUX.ENB.SPI1` -/
  enb : Bool
  /-- `AUX_OTHER`: register bits 2 and 0, in that order -/
  other : BitVec 2
deriving DecidableEq, Repr

/-- An entry of `TXQ1` (R42). -/
structure AuxEntry where
  word : Word
  hold : Bool
deriving DecidableEq, Repr, Inhabited

/-- The auxiliary SPI (R41 to R45). -/
@[ext]
structure Spi1 where
  shiftlen : BitVec 6
  msbfOut : Bool
  clearfifo : Bool
  cphaIn : Bool
  enable : Bool
  varWidth : Bool
  cspat : BitVec 3
  /-- `SPEED`, a field of `Params.speedWidth` bits: `AUX_SPEED_MAX` sets the width (R41) -/
  speed : Nat
  /-- `CNTL0_OTHER`: register bits 31:20 with those of `SPEED` as 0, then 16:15, 13:12 and 8:7 -/
  cntl0Other : BitVec 18
  msbfIn : Bool
  /-- `CNTL1_OTHER`: register bits 31:2 and 0, in that order -/
  cntl1Other : BitVec 31
  /-- `TXQ1`, oldest first (R42) -/
  txq : List AuxEntry
  /-- `RXQ1`, oldest first (R43) -/
  rxq : List Word
  /-- `SR` (R43) -/
  sr : Word
  /-- `SR_VALID` (R43) -/
  srValid : Bool
  /-- `CSHELD1` (R45) -/
  csheld : Bool
deriving DecidableEq, Repr

/-- What is connected to a bus (R61): the two named example slaves, or the oracle under no law. -/
inductive Slave where
  | echo
  | const (c : BitVec 24)
  | oracle
deriving DecidableEq, Repr, Inhabited

/-- The world outside the pins (R60, R61). -/
structure Env where
  /-- `EXT[p]` (R25) -/
  ext : Vector Ext numPins
  slave0 : Slave
  slave1 : Slave
deriving DecidableEq, Repr

/-- The driver context held by the host software (R46). -/
structure DriverCtx where
  bitOrder : BitOrder
  auxSpeed : Nat
  pudCompat : Pull
  variant : PudVariant
  handles : Handles
deriving DecidableEq, Repr

/-- The host: its driver context (R46), the operations it will still issue, and where its sequences keep
their intermediate results. All but `ctx` is the model's own. -/
@[ext]
structure HostSw where
  ctx : DriverCtx
  /-- the host's program, next operation first -/
  todo : List HostOp
  /-- the programs of the runs after a restart of the software, next run first (R371) -/
  runs : List (List HostOp)
  /-- `TIMER` steps that must still happen before a `Sleep` ends (R60) -/
  sleepLeft : Nat
  /-- the result of the last `read_counter` (R290) -/
  counter : BitVec 64
  /-- the receive buffer of the running transfer (R309, R322) -/
  rx : List Byte
  /-- what the last pseudo-instruction answered -/
  answer : Answer
deriving DecidableEq, Repr

/-- The whole machine. -/
@[ext]
structure State where
  /-- the implementation parameters (R5); no step changes them -/
  params : Params
  gpio : Gpio
  /-- `PADS[g]`, 5 bits each (R32) -/
  pads : Vector (BitVec 5) 3
  /-- `CNT` (R33) -/
  cnt : BitVec 64
  spi0 : Spi0
  aux : Aux
  spi1 : Spi1
  env : Env
  /-- `HIST`, oldest first (R62) -/
  hist : List HistEvent
  /-- `LAST_NB` (R47) -/
  lastNb : Option Block
  /-- the value the last transaction returned to the host: none after a write (R130, R131) -/
  result : Option Word
  host : HostSw
  /-- the model's own: which agents step next, in this order (R10, R83) -/
  agenda : List Agent
  /-- the model's own: the draw counter to which the free values are applied (R9) -/
  draws : Nat
deriving DecidableEq, Repr

/-- The outcome of a step or of a meaning. -/
abbrev Out := Host.Outcome State Fault Refusal

/-- GPIO after reset: unspecified by R50, hence the named values of assumption log entry 1. -/
def Gpio.reset : Gpio where
  fsel := Vector.replicate numPins .input
  out := 0
  ren := 0
  fen := 0
  hen := 0
  len := 0
  aren := 0
  afen := 0
  eds := 0
  prev := 0
  pud := 0
  pudclk := 0
  pull := Vector.replicate numPins .off
  puppdn := Vector.replicate numPins 0
  arm := Vector.replicate numPins .none
  pudT := 0
  pudSeen := false

/-- SPI0 after reset (log entry 1). -/
def Spi0.reset : Spi0 where
  cs := 0
  cpha := false
  cpol := false
  ta := false
  cspol0 := false
  cspol1 := false
  cspol2 := false
  csOther := 0
  cdiv := 0
  txq := []
  rxq := []

/-- The auxiliary enable after reset (log entry 1). -/
def Aux.reset : Aux where
  enb := false
  other := 0

/-- SPI1 after reset (log entry 1). -/
def Spi1.reset : Spi1 where
  shiftlen := 0
  msbfOut := false
  clearfifo := false
  cphaIn := false
  enable := false
  varWidth := false
  cspat := 0
  speed := 0
  cntl0Other := 0
  msbfIn := false
  cntl1Other := 0
  txq := []
  rxq := []
  sr := 0
  srValid := false
  csheld := false

/-- The world outside at the start: nothing drives a pin, the slaves are under no law (log entry 1). -/
def Env.reset : Env where
  ext := Vector.replicate numPins .z
  slave0 := .oracle
  slave1 := .oracle

/-- The driver context at the start (R46); `VARIANT`, which `init` sets, as log entry 1 says. -/
def DriverCtx.reset : DriverCtx where
  bitOrder := .msbFirst
  auxSpeed := 0
  pudCompat := .off
  variant := .legacy
  handles := { gpio := false, clock := false, pads := false, spi0 := false, st := false, aux := false, spi1 := false }

/-- The host at the start: no program (log entry 6). -/
def HostSw.reset : HostSw where
  ctx := DriverCtx.reset
  todo := []
  runs := []
  sleepLeft := 0
  counter := 0
  rx := []
  answer := .none

/-- The machine right after reset. The spec states `ARM[p] = none`, `LAST_NB = none`, `HIST` empty and the
host context (R46, R50, R62); every other value is a named one (R50; log entry 1). -/
def State.reset : State where
  params := Params.standard
  gpio := Gpio.reset
  pads := Vector.replicate 3 0
  cnt := 0
  spi0 := Spi0.reset
  aux := Aux.reset
  spi1 := Spi1.reset
  env := Env.reset
  hist := []
  lastNb := none
  result := none
  host := HostSw.reset
  agenda := []
  draws := 0

end Sys2Proof.Machine
end

