-- ==== Sys2Proof/Machine/Operands.lean ====
section
/-! DEFINITION. Register layouts and operand assembly (spec/30_encoding.md R104 to R115): where each pin's
field lies in a register, the image a read returns, what a written value selects, the packing of SPI1 data
words, and the bit helpers they are written with. In every image `d` is the free word that fills the
reserved and unnamed positions (R118). -/

namespace Sys2Proof

/-! ### Codes of pin functions and pull modes (R105, R107) -/

/-- `FSEL_CODE` of a mode (R5, R105). -/
def FselCodes.code (c : FselCodes) : FunSel → BitVec 3
  | .input => c.input
  | .output => c.output
  | .alt0 => c.alt0
  | .alt1 => c.alt1
  | .alt2 => c.alt2
  | .alt3 => c.alt3
  | .alt4 => c.alt4
  | .alt5 => c.alt5

/-- The mode whose `FSEL_CODE` is the argument; with eight distinct codes there is always one (R105). -/
def FselCodes.decode (c : FselCodes) (v : BitVec 3) : FunSel :=
  if v = c.input then .input
  else if v = c.output then .output
  else if v = c.alt0 then .alt0
  else if v = c.alt1 then .alt1
  else if v = c.alt2 then .alt2
  else if v = c.alt3 then .alt3
  else if v = c.alt4 then .alt4
  else .alt5

/-- `PUD_CODE` of the Modern fields (R107). -/
def Pull.code : Pull → BitVec 2
  | .off => 0
  | .up => 1
  | .down => 2

/-- `PUD_CODE_LEGACY` of a mode (R5, R107). -/
def PudCodes.code (c : PudCodes) : Pull → BitVec 2
  | .off => c.off
  | .up => c.up
  | .down => c.down

/-- The mode whose `PUD_CODE_LEGACY` is the argument, if there is one (R181). -/
def PudCodes.decode (c : PudCodes) (m : BitVec 2) : Option Pull :=
  if m = c.off then some .off else if m = c.up then some .up else if m = c.down then some .down else none

/-! ### The width of `SPEED` (R41) -/

/-- The width of `SPEED`: the least that holds `AUX_SPEED_MAX` (R5, R41), at most the 12 bits R113 has for the field. -/
def Params.speedWidth (p : Params) : Nat := (List.range 12).countP fun k => 2 ^ k ≤ p.auxSpeedMax

end Sys2Proof

namespace Sys2Proof.Machine

/-! ### Bit helpers -/

/-- The `n`-bit value whose bit `i` is `f i`. -/
def packBits : (n : Nat) → (Nat → Bool) → BitVec n
  | 0, _ => 0#0
  | n + 1, f => BitVec.cons (f n) (packBits n f)

/-- One bit per pin from a predicate on pins. -/
def packPins (f : Pin → Bool) : PinBits :=
  packBits numPins fun p => if h : p < numPins then f ⟨p, h⟩ else false

/-- The values `f 0`, `f 1`, … as a list. -/
def tabulate {α : Type} : (n : Nat) → (Fin n → α) → List α
  | 0, _ => []
  | n + 1, f => f 0 :: tabulate n fun i => f i.succ

theorem tabulate_length {α : Type} (n : Nat) (f : Fin n → α) : (tabulate n f).length = n := by
  induction n with
  | zero => rfl
  | succ n ih => rw [tabulate, List.length_cons, ih]

/-- One value per pin from a function on pins. -/
def pinVector {α : Type} (f : Pin → α) : Vector α numPins :=
  ⟨(tabulate numPins f).toArray, tabulate_length numPins f⟩

/-- A one-bit field. -/
abbrev bit1 (b : Bool) : BitVec 1 := BitVec.ofBool b

/-- Byte `k` of a register value in the byte-lane view of R73: byte 0, at the lowest address, holds bits 7:0. -/
def byteLane (v : Word) (k : Fin 4) : Byte := v.extractLsb' (8 * k) 8

end Sys2Proof.Machine

namespace Sys2Proof

/-! ### Bit positions as configured (R5)

The images and written values of this model are numbered as the tables of spec/30_encoding.md number them; where a
register's bit positions are configuration values these two renumber a word from and to the register's own positions. -/

/-- The position of the bit that the tables put at `j`. -/
def BitPlaces.pos (b : BitPlaces) (j : Nat) : Nat := if h : j < 32 then (b.place.get ⟨j, h⟩).val else j

/-- A register's word with its bits numbered as the tables number them. -/
def BitPlaces.tableWord (b : BitPlaces) (v : Word) : Word := Machine.packBits 32 fun j => v.getLsbD (b.pos j)

/-- The bits of `w` below `n`, each at its position. -/
def BitPlaces.placed (b : BitPlaces) (w : Word) : Nat → Word
  | 0 => 0
  | n + 1 => b.placed w n ||| ((w.extractLsb' n 1).setWidth 32 <<< b.pos n)

/-- A word numbered as the tables number it, with its bits at the register's own positions. -/
def BitPlaces.regWord (b : BitPlaces) (w : Word) : Word := b.placed w 32

end Sys2Proof

namespace Sys2Proof.Machine

/-! ### Pin positions (R104, R106, R108) -/

/-- Pin `p` belongs to member `n` of a group with `k` pins per register. -/
def inMember (k n : Nat) (p : Pin) : Bool := p.val / k == n

/-- Shift of a pin's function-select field (R104). -/
def shift3 (p : Nat) : Nat := (p % 10) * 3

/-- Shift of a pin's Modern pull field (R108). -/
def shift2 (p : Nat) : Nat := (p % 16) * 2

/-- The mask of a pin in a one-bit register, `1 << (p % 32)` (R106). -/
def pinMask (p : Nat) : Word := 1#32 <<< (p % 32)

/-! ### Function select (R104, R105) -/

/-- The image of `GPFSELn` (R104, R140). -/
def fselWord (c : FselCodes) (n : Nat) (fsel : Vector FunSel numPins) (d : Word) : Word :=
  packBits 32 fun i =>
    if h : i < 30 ∧ 10 * n + i / 3 < numPins then (c.code (fsel.get ⟨10 * n + i / 3, h.2⟩)).getLsbD (i % 3)
    else d.getLsbD i

/-- `FSEL` after `WR GPFSELn, v` (R141). -/
def fselWrite (c : FselCodes) (n : Nat) (v : Word) (fsel : Vector FunSel numPins) : Vector FunSel numPins :=
  pinVector fun p => if inMember 10 n p then c.decode (v.extractLsb' (shift3 p) 3) else fsel.get p

/-! ### One bit per pin, 32 pins per register (R106) -/

/-- The image of member `n` of a one-bit-per-pin pair. -/
def pairWord (n : Nat) (a : PinBits) (d : Word) : Word :=
  packBits 32 fun i => if 32 * n + i < numPins then a.getLsbD (32 * n + i) else d.getLsbD i

/-- Every bit of member `n` replaced by the written value (R151). -/
def pairWrite (n : Nat) (v : Word) (a : PinBits) : PinBits :=
  packPins fun p => if inMember 32 n p then v.getLsbD (p % 32) else a.getLsbD p

/-- The bits written 1 are set (R142). -/
def pairSet (n : Nat) (v : Word) (a : PinBits) : PinBits :=
  packPins fun p => a.getLsbD p || (inMember 32 n p && v.getLsbD (p % 32))

/-- The bits written 1 are cleared (R144, R149). -/
def pairClear (n : Nat) (v : Word) (a : PinBits) : PinBits :=
  packPins fun p => a.getLsbD p && !(inMember 32 n p && v.getLsbD (p % 32))

/-! ### Pull fields (R107, R108) -/

/-- The pull a Modern field applies; `none` is the unspecified pull of the reserved value 3 (R30). -/
def modernPull (f : BitVec 2) : Option Pull :=
  match f.toNat with
  | 0 => some .off
  | 1 => some .up
  | 2 => some .down
  | _ => none

/-- The image of `GPPUPPDNn`, numbered as R108 numbers it (R166). -/
def puppdnWord (n : Nat) (f : Vector (BitVec 2) numPins) (d : Word) : Word :=
  packBits 32 fun i =>
    if h : 16 * n + i / 2 < numPins then (f.get ⟨16 * n + i / 2, h⟩).getLsbD (i % 2) else d.getLsbD i

/-- `PUPPDN` after `WR GPPUPPDNn, v` with `v` numbered as R108 numbers it (R167). -/
def puppdnWrite (n : Nat) (v : Word) (f : Vector (BitVec 2) numPins) : Vector (BitVec 2) numPins :=
  pinVector fun p => if inMember 16 n p then v.extractLsb' (shift2 p) 2 else f.get p

/-- The image of `GPPUD`, numbered as R107 numbers it (R162). -/
def gppudWord (pud : BitVec 2) (d : Word) : Word := d.extractLsb' 2 30 ++ pud

/-- The image of `PADSg`, numbered as R109 numbers it (R170). -/
def padsWord (a : BitVec 5) (d : Word) : Word := d.extractLsb' 5 27 ++ a

/-! ### SPI0 (R111, R112) -/

/-- The positions of `CS_OTHER` in a value of `SPI0.CS`: bits 25:24, 15:8, 6. -/
def csOtherOf (v : Word) : BitVec 11 := v.extractLsb' 24 2 ++ v.extractLsb' 8 8 ++ v.extractLsb' 6 1

/-- The image of `SPI0.CS`, numbered as R111 numbers it, with the three live status bits given (R201). -/
def csWord (p : Spi0) (done rxd txd : Bool) (d : Word) : Word :=
  d.extractLsb' 26 6 ++ p.csOther.extractLsb' 9 2 ++ bit1 p.cspol2 ++ bit1 p.cspol1 ++ bit1 p.cspol0
    ++ d.extractLsb' 19 2 ++ bit1 txd ++ bit1 rxd ++ bit1 done ++ p.csOther.extractLsb' 1 8
    ++ bit1 p.ta ++ p.csOther.extractLsb' 0 1 ++ 0#2 ++ bit1 p.cpol ++ bit1 p.cpha ++ p.cs

/-- The data mode `{CPOL, CPHA}` (R211). -/
def Spi0.mode (p : Spi0) : BitVec 2 := bit1 p.cpol ++ bit1 p.cpha

/-! ### AUX and SPI1 (R113 to R116) -/

/-- The image of `AUX.ENB`, numbered as R114 numbers it (R232). -/
def enbWord (a : Aux) (d : Word) : Word :=
  d.extractLsb' 3 29 ++ a.other.extractLsb' 1 1 ++ bit1 a.enb ++ a.other.extractLsb' 0 1

/-- The positions of `AUX_OTHER`: bits 2 and 0. -/
def auxOtherOf (v : Word) : BitVec 2 := v.extractLsb' 2 1 ++ v.extractLsb' 0 1

/-- `SPEED` in a value, `n` bits wide from bit 20 up (R41, R113). -/
def speedOf (n : Nat) (v : Word) : Nat := (v.extractLsb' 20 12).toNat % 2 ^ n

/-- The positions of `CNTL0_OTHER`: those of bits 31:20 above the `n` bits of `SPEED`, which are unnamed (R41, R118), and
bits 16:15, 13:12, 8:7. -/
def cntl0OtherOf (n : Nat) (v : Word) : BitVec 18 :=
  (v.extractLsb' 20 12 >>> n <<< n) ++ v.extractLsb' 15 2 ++ v.extractLsb' 12 2 ++ v.extractLsb' 7 2

/-- The image of `SPI1.CNTL0`, numbered as R113 numbers it; every bit is stored (R234). -/
def cntl0Word (a : Spi1) : Word :=
  (BitVec.ofNat 12 a.speed ||| a.cntl0Other.extractLsb' 6 12) ++ a.cspat ++ a.cntl0Other.extractLsb' 4 2 ++ bit1 a.varWidth ++ a.cntl0Other.extractLsb' 2 2
    ++ bit1 a.enable ++ bit1 a.cphaIn ++ bit1 a.clearfifo ++ a.cntl0Other.extractLsb' 0 2 ++ bit1 a.msbfOut
    ++ a.shiftlen

/-- The positions of `CNTL1_OTHER`: every bit but bit 1. -/
def cntl1OtherOf (v : Word) : BitVec 31 := v.extractLsb' 2 30 ++ v.extractLsb' 0 1

/-- The image of `SPI1.CNTL1`, numbered as R114 numbers it (R236). -/
def cntl1Word (a : Spi1) : Word :=
  a.cntl1Other.extractLsb' 1 30 ++ bit1 a.msbfIn ++ a.cntl1Other.extractLsb' 0 1

/-- The image of `SPI1.STAT`, numbered as R114 numbers it, with the three live status bits given (R240). -/
def statWord (busy rxEmpty txFull : Bool) (d : Word) : Word :=
  d.extractLsb' 11 21 ++ bit1 txFull ++ d.extractLsb' 8 2 ++ bit1 rxEmpty ++ bit1 busy ++ d.extractLsb' 0 6

/-- The variable-width data word of a group of 1 to 3 bytes (R115). -/
def packGroup (g : List Byte) : Word :=
  BitVec.ofNat 8 (8 * g.length) ++ g.getD 0 0 ++ g.getD 1 0 ++ g.getD 2 0

/-- The `c` bytes of a receive word, first received first: bits `8c-1:8c-8` down to `7:0` (R115, R322). -/
def unpackGroup (c : Nat) (d : Word) : List Byte :=
  (List.range c).map fun k => d.extractLsb' (8 * (c - 1 - k)) 8

/-- The bits of a queued word that are shifted out, as the low `n` bits (R248): from bit 23 down in
variable-width mode, from bit 31 down in fixed-width mode. -/
def shiftedBits (varWidth : Bool) (n : Nat) (w : Word) : BitVec 24 :=
  (w.extractLsb' ((if varWidth then 24 else 32) - n) n).setWidth 24

/-- The low `n` bits of a 24-bit value. -/
def lowBits (n : Nat) (v : BitVec 24) : BitVec 24 := (v.setWidth n).setWidth 24

/-! ### Bit order (R330, R331) -/

/-- `bit_reverse(b)`: bit `i` is bit `7 - i` of `b` (R330). -/
def bitReverse (b : Byte) : Byte := packBits 8 fun i => b.getLsbD (7 - i)

/-- `order(b)` (R331). -/
def orderByte (o : BitOrder) (b : Byte) : Byte :=
  match o with
  | .lsbFirst => bitReverse b
  | .msbFirst => b

end Sys2Proof.Machine
end

