-- ==== Sys2Proof/Machine/Flags.lean ====
section
/-! DEFINITION. What is computed from the state and never stored: the status flags (spec/10_state.md R22,
R37, R44), the transfer state of SPI0 (R38), the effective dividers (R35, spec/44_auxspi.md R250), routing
(R39), the chip-select lines (R38, R251), the pull state (R30) and the pin level (R25). -/

namespace Sys2Proof.Machine

/-! ### SPI0 -/

/-- `TXD`: the transmit FIFO can take a byte (R37). -/
def State.txd (s : State) : Bool := decide (s.spi0.txq.length < s.params.spi0Depth)

/-- `RXD`: the receive FIFO holds a byte (R37). -/
def State.rxd (s : State) : Bool := decide (0 < s.spi0.rxq.length)

/-- `DONE`: active and nothing left to shift (R37). -/
def State.done (s : State) : Bool := s.spi0.ta && s.spi0.txq.isEmpty

/-- `CDIV_EFF` (R35): the low bit is not used and 0 means 65536. -/
def Spi0.cdivEff (p : Spi0) : Nat :=
  if p.cdiv &&& 0xFFFE#16 = 0 then 65536 else (p.cdiv &&& 0xFFFE#16).toNat

/-- The SPI0 serial clock in whole Hz, `CORE_CLOCK_HZ / CDIV_EFF` (R35, R210). -/
def State.spi0ClockHz (s : State) : Nat := s.params.coreClockHz / s.spi0.cdivEff

/-- The transfer state machine of R38. -/
inductive Spi0Phase where
  | idle
  | shifting
  | stalled
  | done
deriving DecidableEq, Repr

/-- The phase SPI0 is in (R38). -/
def State.spi0Phase (s : State) : Spi0Phase :=
  if s.spi0.ta = false then .idle
  else if s.spi0.txq.length = 0 then .done
  else if s.spi0.rxq.length < s.params.spi0Depth then .shifting
  else .stalled

/-- The level driven on chip-select line 0, 1 or 2 of SPI0: its active polarity exactly while it is selected
and `TA = 1` (R38, R212). -/
def State.spi0Line (s : State) (i : Fin 3) : Bool :=
  let pol := match i with | 0 => s.spi0.cspol0 | 1 => s.spi0.cspol1 | 2 => s.spi0.cspol2
  if s.spi0.ta && s.spi0.cs.toNat == i.val then pol else !pol

/-! ### SPI1 -/

/-- `TX_FULL` (R44). -/
def State.txFull (s : State) : Bool := decide (s.spi1.txq.length = s.params.auxDepth)

/-- `RX_EMPTY` (R44). -/
def State.rxEmpty (s : State) : Bool := s.spi1.rxq.isEmpty

/-- `BUSY` (R44). -/
def State.busy (s : State) : Bool := !s.spi1.txq.isEmpty

/-- The SPI1 serial clock in whole Hz, `CORE_CLOCK_HZ / (2 * (SPEED + 1))` (R250). -/
def State.spi1ClockHz (s : State) : Nat := s.params.coreClockHz / (2 * (s.spi1.speed + 1))

/-- The chip-select pattern of the last SPI1 transaction of a history, if there is one. -/
def lastCspat : List HistEvent → Option (BitVec 3)
  | [] => none
  | .spi0 _ _ _ _ _ :: rest => lastCspat rest
  | .spi1 p _ _ _ _ _ :: rest => (lastCspat rest).or (some p)

/-- The SPI1 chip-select lines between transactions: as the last transaction left them while held, else all
inactive (R251); a line held since before the first transaction of `HIST` carries the present pattern. -/
def State.spi1Lines (s : State) : BitVec 3 :=
  if s.spi1.csheld then (lastCspat s.hist).getD s.spi1.cspat else 0b111

/-! ### Routing (R39) -/

/-- `ROUTED0`. -/
def State.routed0 (s : State) : Bool := s.params.spi0Pins.all fun p => s.gpio.fsel.get p == s.params.spi0Alt

/-- `ROUTED1`. -/
def State.routed1 (s : State) : Bool := s.params.spi1Pins.all fun p => s.gpio.fsel.get p == s.params.spi1Alt

/-! ### Pulls and levels -/

/-- `PULLSTATE(p)`, latches that are due having been performed (R30, R181); `none` is the unspecified pull of a
Modern field of 3. -/
def State.pullState (s : State) (p : Pin) : Option Pull :=
  match s.params.variant with
  | .legacy => some (s.gpio.pull.get p)
  | .modern => modernPull (s.gpio.puppdn.get p)

/-- What is known of a pin's level: a value, or a draw (R25). -/
inductive Level where
  | low
  | high
  | free
deriving DecidableEq, Repr

/-- The level of a value. -/
def Level.ofBool (b : Bool) : Level := if b then .high else .low

/-- `LEV(p)` (R25), a floating input and an alternate function (R39 `ALTLEV`) being draws. -/
def State.level (s : State) (p : Pin) : Level :=
  match s.gpio.fsel.get p with
  | .output => Level.ofBool (s.gpio.out.getLsbD p)
  | .input =>
    match s.env.ext.get p with
    | .high => .high
    | .low => .low
    | .z =>
      match s.pullState p with
      | some .up => .high
      | some .down => .low
      | some .off | none => .free
  | .alt0 | .alt1 | .alt2 | .alt3 | .alt4 | .alt5 => .free

/-- One evaluation of every pin's level, the draws taken from `d` (R25, R146). -/
def State.levels (s : State) (d : PinBits) : PinBits :=
  packPins fun p =>
    match s.level p with
    | .low => false
    | .high => true
    | .free => d.getLsbD p

end Sys2Proof.Machine
end

