-- ==== Sys2Proof/Machine/Ops.lean ====
section
/-! DEFINITION. The operations every meaning is written over: field updates, draws (spec/00_scope.md R9), the
generic read and write transactions with their ordering rule and the SPI1 gate
(spec/40_register_access.md R130, R131; spec/20_memory.md R80; spec/44_auxspi.md R231), asynchronous edge
detection (spec/41_gpio.md R176), the Legacy pull latch (R181) and the receive path of SPI1 (R244). The block
raises no exception and has no trap entry or return (spec/60_exceptions.md R345, R348, R349), so there is no
operation that takes one. -/

namespace Sys2Proof.Machine

/-! ### Updates -/

/-- `s` with its GPIO block replaced. -/
def State.withGpio (s : State) (g : Gpio) : State := { s with gpio := g }

/-- `s` with its pad bits replaced. -/
def State.withPads (s : State) (p : Vector (BitVec 5) 3) : State := { s with pads := p }

/-- `s` with its counter replaced. -/
def State.withCnt (s : State) (c : BitVec 64) : State := { s with cnt := c }

/-- `s` with its SPI0 block replaced. -/
def State.withSpi0 (s : State) (p : Spi0) : State := { s with spi0 := p }

/-- `s` with its auxiliary enable replaced. -/
def State.withAux (s : State) (a : Aux) : State := { s with aux := a }

/-- `s` with its SPI1 block replaced. -/
def State.withSpi1 (s : State) (p : Spi1) : State := { s with spi1 := p }

/-- `s` with the outside world replaced. -/
def State.withEnv (s : State) (e : Env) : State := { s with env := e }

/-- `s` with one more serial transaction in `HIST` (R62). -/
def State.logged (s : State) (e : HistEvent) : State := { s with hist := s.hist ++ [e] }

/-- `s` with `LAST_NB` replaced (R47). -/
def State.withLastNb (s : State) (b : Option Block) : State := { s with lastNb := b }

/-- `s` with the value the transaction returned (R130, R131). -/
def State.withResult (s : State) (r : Option Word) : State := { s with result := r }

/-- `s` with the host replaced. -/
def State.withHost (s : State) (h : HostSw) : State := { s with host := h }

/-- `s` with its agenda replaced. -/
def State.withAgenda (s : State) (a : List Agent) : State := { s with agenda := a }

/-! ### Draws (R9) -/

/-- The draw counter advanced: the free values of the old count are used up. -/
def State.drawn (s : State) : State := { s with draws := s.draws + 1 }

/-- The free word of the present draw. -/
def State.freeWord (s : State) : Word := Config.freeWord s.draws

/-- The free bits, one per pin, of the present draw. -/
def State.freePins (s : State) : PinBits := Config.freePins s.draws

/-- The free pull of a pin of the present draw. -/
def State.freePull (s : State) (p : Pin) : Pull := Config.freePull s.draws p

/-! ### The generic transactions (R130, R131) -/

/-- Line `order` passes: no non-barriered run to another block is open (R80, R81). -/
def State.orderOk (s : State) (b : Block) : Bool :=
  match s.lastNb with
  | none => true
  | some pending => pending == b

/-- Line `gate` passes: SPI1 registers are accessible only while enabled (R231). -/
def State.gateOk (s : State) (b : Block) : Bool := b != .spi1 || s.aux.enb

/-- `LAST_NB` after a transaction to `b` (R80). -/
def lastNbAfter (b : Block) (nb : Bool) : Option Block := if nb then some b else none

/-- Apply a function to the next state of an outcome. -/
def mapNext (f : State → State) : Out → Out
  | .next t => .next (f t)
  | .fault r => .fault r
  | .refused r => .refused r

/-- Lines `gate` and `perform` of a transaction to block `b`, then `LAST_NB` (R80, R130, R131, R231). -/
def gated (b : Block) (nb : Bool) (perform : State → Out) (s : State) : Out :=
  if s.gateOk b then mapNext (fun t => t.withLastNb (lastNbAfter b nb)) (perform s) else .refused .spi1Disabled

/-- A transaction to block `b` whose effect is `perform`: the line `order` (R80), then `gated`. The order of the
checks is R347's; a stopped transaction has no effect (R348). -/
def transact (b : Block) (nb : Bool) (perform : State → Out) (s : State) : Out :=
  match s.lastNb with
  | none => gated b nb perform s
  | some pending => if pending = b then gated b nb perform s else .fault (.crossBlockWithoutBarrier pending b)

/-- A read transaction: `read` gives the value returned and the state its side effects leave (R130). -/
def busRead (b : Block) (nb : Bool) (read : State → Word × State) : State → Out :=
  transact b nb fun s => .next ((read s).2.withResult (some (read s).1))

/-- A write transaction: `write` performs the write rule; nothing is returned (R131). -/
def busWrite (b : Block) (nb : Bool) (write : State → Out) : State → Out :=
  transact b nb fun s => mapNext (fun t => t.withResult none) (write s)

/-- A register that exists only in one generation: in the other the transaction is refused before any other
check (R117, R168, R347). -/
def onlyIn (v : PudVariant) (m : State → Out) (s : State) : Out :=
  if s.params.variant = v then m s else .refused .unknownRegister

/-- A read without side effect whose reserved and unnamed positions are drawn (R118). -/
def readDrawing (image : State → Word → Word) (s : State) : Word × State := (image s s.freeWord, s.drawn)

/-- A read without side effect of a register all of whose bits are defined. -/
def readPlain (image : State → Word) (s : State) : Word × State := (image s, s)

/-! ### Asynchronous edge detection (R176) -/

/-- Whether the asynchronous detectors of a pin fire at a step that takes its level from `old` to `new`; `d` is the
draw used when either level is one. -/
def asyncFires (rise fall d : Bool) (old new : Level) : Bool :=
  match old, new with
  | .low, .high => rise
  | .high, .low => fall
  | .low, .low => false
  | .high, .high => false
  | .free, _ => (rise || fall) && d
  | _, .free => (rise || fall) && d

/-- R176 for a step from `old` to `new` that changes what determines the level of the pins in `touched`. -/
def asyncDetect (touched : Pin → Bool) (old new : State) : State :=
  (new.withGpio { new.gpio with
    eds := packPins fun p => new.gpio.eds.getLsbD p ||
      (touched p && asyncFires (new.gpio.aren.getLsbD p) (new.gpio.afen.getLsbD p) (new.freePins.getLsbD p)
        (old.level p) (new.level p)) }).drawn

/-- A step from `old` to `new` changed `PULLSTATE(p)`; an unspecified pull counts as changed (R30, R176). -/
def pullChanged (old new : State) (p : Pin) : Bool :=
  match old.pullState p, new.pullState p with
  | some a, some b => a != b
  | _, _ => true

/-! ### The Legacy pull latch (R181) -/

/-- `latch(p)` is enabled: armed, still clocked, and the hold time has passed, modulo `2^64` (R137 f, R181). -/
def State.latchDue (s : State) (p : Pin) : Bool :=
  match s.params.variant, s.gpio.arm.get p with
  | .legacy, .armed _ t _ => s.gpio.pudclk.getLsbD p && decide (s.params.tPudTicks ≤ (s.cnt - t).toNat)
  | _, _ => false

/-- The pull a due latch applies: the armed mode when the timing was met, else a draw (R181). -/
def State.latchedPull (s : State) (p : Pin) : Pull :=
  match s.gpio.arm.get p with
  | .armed m _ true => (s.params.pudCodes.decode m).getD (s.freePull p)
  | _ => s.freePull p

/-- The due latches among `which` performed, without the detectors (R181). -/
def latchEffect (which : Pin → Bool) (s : State) : State :=
  (s.withGpio { s.gpio with
    pull := pinVector fun p => if which p && s.latchDue p then s.latchedPull p else s.gpio.pull.get p
    arm := pinVector fun p => if which p && s.latchDue p then .latched else s.gpio.arm.get p }).drawn

/-- Perform the due latches among `which`; the asynchronous detectors see the level changes they make
(R176, R181). -/
def latchPins (which : Pin → Bool) (s : State) : State :=
  asyncDetect (fun p => which p && s.latchDue p && pullChanged s (latchEffect which s) p) s (latchEffect which s)

/-- `settle()` (R181): perform every due latch. -/
def settle (s : State) : State := latchPins (fun _ => true) s

/-! ### Queues -/

/-- `RD SPI1.IO`: the FIFO first, then the shift register, else a draw (R244). -/
def auxReceive (s : State) : Word × State :=
  match s.spi1.rxq with
  | w :: rest => (w, s.withSpi1 { s.spi1 with rxq := rest })
  | [] =>
    if s.spi1.srValid then (s.spi1.sr, s.withSpi1 { s.spi1 with srValid := false })
    else (s.freeWord, s.drawn)

/-- A push on `TXQ1` (R245, R247). -/
def auxPush (hold : Bool) (v : Word) (s : State) : Out :=
  if s.spi1.clearfifo then .refused .spi1WriteWhileCleared
  else if s.spi1.txq.length = s.params.auxDepth then .refused .txFifoOverflow
  else .next (s.withSpi1 { s.spi1 with txq := s.spi1.txq ++ [{ word := v, hold := hold }] })

end Sys2Proof.Machine
end

