-- ==== Sys2Proof/Machine/Agents.lean ====
section
/-! DEFINITION. The steps of the block's own agents and of the environment: `TIMER` (spec/42_timer.md R191),
`GPIO.SAMPLE` (spec/41_gpio.md R175), `GPIO.PUDLATCH` (R181), `SPI0.SHIFT` (spec/43_spi0.md R214),
`SPI1.SHIFT` and `SPI1.RXPUSH` (spec/44_auxspi.md R252, R254), `SetExt` and `Sleep` of `ENV`
(spec/10_state.md R60). An agent that is not enabled takes no step: the state stays as it is. -/

namespace Sys2Proof.Machine

/-- `TIMER` (R191). A tick also counts towards the end of a running `Sleep` (R60). -/
def timerStep (s : State) : State :=
  (s.withCnt (s.cnt + 1)).withHost { s.host with sleepLeft := s.host.sleepLeft - 1 }

/-- `EDS` after a sample that sees the levels `now` (R175). -/
def sampledEds (g : Gpio) (now : PinBits) : PinBits :=
  g.eds ||| (g.ren &&& ~~~g.prev &&& now) ||| (g.fen &&& g.prev &&& ~~~now) ||| (g.hen &&& now) ||| (g.len &&& ~~~now)

/-- `GPIO.SAMPLE` from a settled state (R175). -/
def sampleApply (s : State) : State :=
  (s.withGpio { s.gpio with
    eds := sampledEds s.gpio (s.levels s.freePins)
    prev := s.levels s.freePins }).drawn

/-- `GPIO.SAMPLE` (R175); levels are evaluated, so due latches come first (R181). -/
def sampleStep (s : State) : State := sampleApply (settle s)

/-- `GPIO.PUDLATCH` for one pin (R181). -/
def pudLatchStep (q : Pin) (s : State) : State := latchPins (fun p => p == q) s

/-- `SPI0.SHIFT` is enabled (R214). -/
def State.spi0ShiftEnabled (s : State) : Bool :=
  s.spi0.ta && !s.spi0.txq.isEmpty && decide (s.spi0.rxq.length < s.params.spi0Depth)

/-- What the SPI0 slave answers to `b`; a draw when the bus is not routed (R61, R214). -/
def State.spi0Answer (s : State) (b : Byte) : Byte :=
  if s.routed0 then
    match s.env.slave0 with
    | .echo => b
    | .const c => c.setWidth 8
    | .oracle => Config.slave0 s.spi0.cs s.spi0.mode b s.hist
  else s.freeWord.setWidth 8

/-- One byte shifted out of `TXQ0` and one into `RXQ0` (R214). -/
def spi0Exchange (b : Byte) (rest : List Byte) (s : State) : State :=
  ((s.withSpi0 { s.spi0 with txq := rest, rxq := s.spi0.rxq ++ [s.spi0Answer b] }).logged
    (.spi0 s.spi0.cs s.spi0.mode s.spi0.cdivEff b (s.spi0Answer b))).drawn

/-- `SPI0.SHIFT` (R214). -/
def spi0ShiftStep (s : State) : Out :=
  if s.spi0ShiftEnabled then
    if s.spi0.csOther ≠ 0 then .refused .unmodelledControlBit
    else
      match s.spi0.txq with
      | b :: rest => .next (spi0Exchange b rest s)
      | [] => .next s
  else .next s

/-- `SPI1.SHIFT` is enabled (R231, R252). -/
def State.spi1ShiftEnabled (s : State) : Bool :=
  s.aux.enb && s.spi1.enable && !s.spi1.clearfifo && !s.spi1.txq.isEmpty && !s.spi1.srValid

/-- The number of bits of a queued word's transaction: from the word in variable-width mode, else `SHIFTLEN`
(R248, R252). -/
def Spi1.bitCount (a : Spi1) (w : Word) : Nat := if a.varWidth then (w.extractLsb' 24 8).toNat else a.shiftlen.toNat

/-- The lengths that have a meaning (R116). -/
def Spi1.lengthOk (a : Spi1) (n : Nat) : Bool := n == 8 || n == 16 || (a.varWidth && n == 24)

/-- What the SPI1 slave answers to `n` bits, as an `n`-bit value; a draw when the bus is not routed (R61, R252). -/
def State.spi1Answer (s : State) (n : Nat) (bits : BitVec 24) : BitVec 24 :=
  if s.routed1 then
    match s.env.slave1 with
    | .echo => lowBits n bits
    | .const c => lowBits n c
    | .oracle => lowBits n (Config.slave1 s.spi1.cspat n bits (!s.spi1.csheld) s.hist)
  else lowBits n (s.freeWord.setWidth 24)

/-- One whole SPI1 transaction of `n` bits (R252). -/
def spi1Exchange (e : AuxEntry) (rest : List AuxEntry) (n : Nat) (s : State) : State :=
  let bits := shiftedBits s.spi1.varWidth n e.word
  ((s.withSpi1 { s.spi1 with
      txq := rest
      sr := (s.spi1Answer n bits).setWidth 32
      srValid := true
      csheld := e.hold }).logged
    (.spi1 s.spi1.cspat s.spi1.speed n bits (s.spi1Answer n bits) e.hold)).drawn

/-- `SPI1.SHIFT` (R252): the refusals in the order of the rule, then the transaction. -/
def spi1ShiftStep (s : State) : Out :=
  if s.spi1ShiftEnabled then
    if s.spi1.cntl0Other ≠ 0 ∨ s.spi1.cntl1Other ≠ 0 then .refused .unmodelledControlBit
    else if s.spi1.msbfOut = false ∨ s.spi1.msbfIn = false then .refused .unmodelledBitOrder
    else
      match s.spi1.txq with
      | e :: rest =>
        if s.spi1.lengthOk (s.spi1.bitCount e.word) then .next (spi1Exchange e rest (s.spi1.bitCount e.word) s)
        else .refused .unmodelledShiftLength
      | [] => .next s
  else .next s

/-- `SPI1.RXPUSH` is enabled (R231, R254). -/
def State.rxPushEnabled (s : State) : Bool :=
  s.aux.enb && s.spi1.srValid && decide (s.spi1.rxq.length < s.params.auxDepth)

/-- `SPI1.RXPUSH` (R254). -/
def rxPushStep (s : State) : State :=
  if s.rxPushEnabled then s.withSpi1 { s.spi1 with rxq := s.spi1.rxq ++ [s.spi1.sr], srValid := false } else s

/-- `SetExt(p, l)` from a settled state (R60, R176). -/
def setExtApply (q : Pin) (l : Ext) (s : State) : State :=
  asyncDetect (fun p => p == q) s (s.withEnv { s.env with ext := s.env.ext.set q l })

/-- `SetExt(p, l)` (R60); levels are evaluated, so due latches come first (R181). -/
def setExtStep (q : Pin) (l : Ext) (s : State) : State := setExtApply q l (settle s)

/-- The `TIMER` steps in `d` microseconds, rounded up: at least `d * TIMER_HZ / 10^6` (R60). -/
def sleepTicks (d : Nat) : Nat := (d * timerHz + (10 ^ 6 - 1)) / 10 ^ 6

/-- `Sleep(d)` begins: as many `TIMER` steps happen before the host's next step (R60, R292). -/
def sleepStep (d : Nat) (s : State) : State :=
  s.withHost { s.host with sleepLeft := max s.host.sleepLeft (sleepTicks d) }

end Sys2Proof.Machine
end

