-- ==== Sys2Proof/Machine/AuxSpi.lean ====
section
/-! DEFINITION. The auxiliary enable and the registers of the auxiliary SPI (spec/44_auxspi.md R232 to R247).
Its engine is in Machine/Agents.lean. -/

namespace Sys2Proof.Machine

/-- The read rule of `AUX.ENB` (R232). -/
def enbRead : State → Word × State := readDrawing fun s d => s.params.layout.enb.regWord (enbWord s.aux d)

/-- The auxiliary enable after a write of a value numbered as R114 numbers it (R233). -/
def enbApply (v : Word) : Aux := { enb := v.getLsbD 1, other := auxOtherOf v }

/-- The write rule of `AUX.ENB` (R233). -/
def enbWrite (v : Word) (s : State) : Out := .next (s.withAux (enbApply (s.params.layout.enb.tableWord v)))

/-- The fields of SPI1 after `WR SPI1.CNTL0, v`, before the clear, with a `SPEED` of `n` bits (R235, R41). -/
def cntl0Fields (n : Nat) (a : Spi1) (v : Word) : Spi1 :=
  { a with
    shiftlen := v.extractLsb' 0 6
    msbfOut := v.getLsbD 6
    clearfifo := v.getLsbD 9
    cphaIn := v.getLsbD 10
    enable := v.getLsbD 11
    varWidth := v.getLsbD 14
    cspat := v.extractLsb' 17 3
    speed := speedOf n v
    cntl0Other := cntl0OtherOf n v }

/-- Both FIFOs, the shift register slot and the hold state emptied (R235). -/
def Spi1.cleared (a : Spi1) : Spi1 := { a with txq := [], rxq := [], srValid := false, csheld := false }

/-- SPI1 after a write of `SPI1.CNTL0` of a value numbered as R113 numbers it (R235). -/
def cntl0Apply (n : Nat) (a : Spi1) (v : Word) : Spi1 :=
  if v.getLsbD 9 then (cntl0Fields n a v).cleared else cntl0Fields n a v

/-- The write rule of `SPI1.CNTL0` (R235). -/
def cntl0Write (v : Word) (s : State) : Out :=
  .next (s.withSpi1 (cntl0Apply s.params.speedWidth s.spi1 (s.params.layout.cntl0.tableWord v)))

/-- SPI1 after a write of `SPI1.CNTL1` of a value numbered as R114 numbers it (R237). -/
def cntl1Apply (a : Spi1) (v : Word) : Spi1 := { a with msbfIn := v.getLsbD 1, cntl1Other := cntl1OtherOf v }

/-- The write rule of `SPI1.CNTL1` (R237). -/
def cntl1Write (v : Word) (s : State) : Out :=
  .next (s.withSpi1 (cntl1Apply s.spi1 (s.params.layout.cntl1.tableWord v)))

/-- The read rule of `SPI1.CNTL0` (R234). -/
def cntl0Read : State → Word × State := readPlain fun s => s.params.layout.cntl0.regWord (cntl0Word s.spi1)

/-- The read rule of `SPI1.CNTL1` (R236). -/
def cntl1Read : State → Word × State := readPlain fun s => s.params.layout.cntl1.regWord (cntl1Word s.spi1)

/-- The read rule of `SPI1.STAT`, with the status bits of this instant (R240). -/
def statRead : State → Word × State :=
  readDrawing fun s d => s.params.layout.stat.regWord (statWord s.busy s.rxEmpty s.txFull d)

/-- A write to the status register has no meaning (R241). -/
def statWrite (_s : State) : Out := .refused .statusWrite

/-- `RD AUX.ENB` (R232) -/
def execRdAuxEnb (nb : Bool) : State → Out := busRead .aux nb enbRead

/-- `WR AUX.ENB, v` (R233) -/
def execWrAuxEnb (nb : Bool) (v : Word) : State → Out := busWrite .aux nb (enbWrite v)

/-- `RD SPI1.CNTL0` (R234) -/
def execRdSpi1Cntl0 (nb : Bool) : State → Out := busRead .spi1 nb cntl0Read

/-- `WR SPI1.CNTL0, v` (R235) -/
def execWrSpi1Cntl0 (nb : Bool) (v : Word) : State → Out := busWrite .spi1 nb (cntl0Write v)

/-- `RD SPI1.CNTL1` (R236) -/
def execRdSpi1Cntl1 (nb : Bool) : State → Out := busRead .spi1 nb cntl1Read

/-- `WR SPI1.CNTL1, v` (R237) -/
def execWrSpi1Cntl1 (nb : Bool) (v : Word) : State → Out := busWrite .spi1 nb (cntl1Write v)

/-- `RD SPI1.STAT` (R240) -/
def execRdSpi1Stat (nb : Bool) : State → Out := busRead .spi1 nb statRead

/-- `WR SPI1.STAT, v` (R241): always refused. -/
def execWrSpi1Stat (nb : Bool) (_v : Word) : State → Out := busWrite .spi1 nb statWrite

/-- `RD SPI1.IO` (R244) -/
def execRdSpi1Io (nb : Bool) : State → Out := busRead .spi1 nb auxReceive

/-- `WR SPI1.IO, v` (R245) -/
def execWrSpi1Io (nb : Bool) (v : Word) : State → Out := busWrite .spi1 nb (auxPush false v)

/-- `RD SPI1.TXHOLD` (R246), the same receive path -/
def execRdSpi1Txhold (nb : Bool) : State → Out := busRead .spi1 nb auxReceive

/-- `WR SPI1.TXHOLD, v` (R247) -/
def execWrSpi1Txhold (nb : Bool) (v : Word) : State → Out := busWrite .spi1 nb (auxPush true v)

end Sys2Proof.Machine
end

