-- ==== Sys2Proof/Machine/Gpio.lean ====
section
/-! DEFINITION. Function select, output, level, event status and the six detect enables
(spec/41_gpio.md R140 to R161): one shared read and one shared write rule per kind of register, and one
definition per instruction over them. -/

namespace Sys2Proof.Machine

/-! ### Function select (R140, R141) -/

/-- The read rule of `GPFSELn`. -/
def gpfselRead (n : Nat) : State → Word × State := readDrawing fun s d => fselWord s.params.fselCodes n s.gpio.fsel d

/-- The write rule of `GPFSELn` from a settled state: the pins whose function changes may change level (R176). -/
def gpfselApply (n : Nat) (v : Word) (s : State) : State :=
  asyncDetect (fun p => s.gpio.fsel.get p != (fselWrite s.params.fselCodes n v s.gpio.fsel).get p) s
    (s.withGpio { s.gpio with fsel := fselWrite s.params.fselCodes n v s.gpio.fsel })

/-- The write rule of `GPFSELn`; levels are evaluated, so due latches come first (R181). -/
def gpfselWrite (n : Nat) (v : Word) (s : State) : Out := .next (gpfselApply n v (settle s))

/-- `RD GPIO.GPFSEL0` (R140) -/
def execRdGpfsel0 (nb : Bool) : State → Out := busRead .gpio nb (gpfselRead 0)

/-- `WR GPIO.GPFSEL0, v` (R141) -/
def execWrGpfsel0 (nb : Bool) (v : Word) : State → Out := busWrite .gpio nb (gpfselWrite 0 v)

/-- `RD GPIO.GPFSEL1` (R140) -/
def execRdGpfsel1 (nb : Bool) : State → Out := busRead .gpio nb (gpfselRead 1)

/-- `WR GPIO.GPFSEL1, v` (R141) -/
def execWrGpfsel1 (nb : Bool) (v : Word) : State → Out := busWrite .gpio nb (gpfselWrite 1 v)

/-- `RD GPIO.GPFSEL2` (R140) -/
def execRdGpfsel2 (nb : Bool) : State → Out := busRead .gpio nb (gpfselRead 2)

/-- `WR GPIO.GPFSEL2, v` (R141) -/
def execWrGpfsel2 (nb : Bool) (v : Word) : State → Out := busWrite .gpio nb (gpfselWrite 2 v)

/-- `RD GPIO.GPFSEL3` (R140) -/
def execRdGpfsel3 (nb : Bool) : State → Out := busRead .gpio nb (gpfselRead 3)

/-- `WR GPIO.GPFSEL3, v` (R141) -/
def execWrGpfsel3 (nb : Bool) (v : Word) : State → Out := busWrite .gpio nb (gpfselWrite 3 v)

/-- `RD GPIO.GPFSEL4` (R140) -/
def execRdGpfsel4 (nb : Bool) : State → Out := busRead .gpio nb (gpfselRead 4)

/-- `WR GPIO.GPFSEL4, v` (R141) -/
def execWrGpfsel4 (nb : Bool) (v : Word) : State → Out := busWrite .gpio nb (gpfselWrite 4 v)

/-- `RD GPIO.GPFSEL5` (R140) -/
def execRdGpfsel5 (nb : Bool) : State → Out := busRead .gpio nb (gpfselRead 5)

/-- `WR GPIO.GPFSEL5, v` (R141) -/
def execWrGpfsel5 (nb : Bool) (v : Word) : State → Out := busWrite .gpio nb (gpfselWrite 5 v)

/-! ### Output set and clear (R142 to R145) -/

/-- The output latches replaced: a pin selected as output changes level with its latch (R25, R176). -/
def outApply (out : PinBits) (s : State) : State :=
  asyncDetect (fun p => s.gpio.fsel.get p == .output) s (s.withGpio { s.gpio with out := out })

/-- The write rule of `GPSETn`. -/
def gpsetWrite (n : Nat) (v : Word) (s : State) : Out := .next (outApply (pairSet n v s.gpio.out) s)

/-- The write rule of `GPCLRn`. -/
def gpclrWrite (n : Nat) (v : Word) (s : State) : Out := .next (outApply (pairClear n v s.gpio.out) s)

/-- The read rule of `GPSETn` and `GPCLRn`: a draw, not the latch. -/
def writeOnlyRead : State → Word × State := readDrawing fun _ d => d

/-- `RD GPIO.GPSET0` (R143) -/
def execRdGpset0 (nb : Bool) : State → Out := busRead .gpio nb writeOnlyRead

/-- `WR GPIO.GPSET0, v` (R142) -/
def execWrGpset0 (nb : Bool) (v : Word) : State → Out := busWrite .gpio nb (gpsetWrite 0 v)

/-- `RD GPIO.GPSET1` (R143) -/
def execRdGpset1 (nb : Bool) : State → Out := busRead .gpio nb writeOnlyRead

/-- `WR GPIO.GPSET1, v` (R142) -/
def execWrGpset1 (nb : Bool) (v : Word) : State → Out := busWrite .gpio nb (gpsetWrite 1 v)

/-- `RD GPIO.GPCLR0` (R145) -/
def execRdGpclr0 (nb : Bool) : State → Out := busRead .gpio nb writeOnlyRead

/-- `WR GPIO.GPCLR0, v` (R144) -/
def execWrGpclr0 (nb : Bool) (v : Word) : State → Out := busWrite .gpio nb (gpclrWrite 0 v)

/-- `RD GPIO.GPCLR1` (R145) -/
def execRdGpclr1 (nb : Bool) : State → Out := busRead .gpio nb writeOnlyRead

/-- `WR GPIO.GPCLR1, v` (R144) -/
def execWrGpclr1 (nb : Bool) (v : Word) : State → Out := busWrite .gpio nb (gpclrWrite 1 v)

/-! ### Level (R146, R147) -/

/-- The read rule of `GPLEVn` from a settled state: the live levels. -/
def levelRead (n : Nat) : State → Word × State := readDrawing fun s d => pairWord n (s.levels s.freePins) d

/-- The read rule of `GPLEVn`; levels are evaluated, so due latches come first (R181). -/
def gplevRead (n : Nat) (s : State) : Word × State := levelRead n (settle s)

/-- A write that the register ignores. -/
def ignoredWrite (s : State) : Out := .next s

/-- `RD GPIO.GPLEV0` (R146) -/
def execRdGplev0 (nb : Bool) : State → Out := busRead .gpio nb (gplevRead 0)

/-- `WR GPIO.GPLEV0, v` (R147): ignored. -/
def execWrGplev0 (nb : Bool) (_v : Word) : State → Out := busWrite .gpio nb ignoredWrite

/-- `RD GPIO.GPLEV1` (R146) -/
def execRdGplev1 (nb : Bool) : State → Out := busRead .gpio nb (gplevRead 1)

/-- `WR GPIO.GPLEV1, v` (R147): ignored. -/
def execWrGplev1 (nb : Bool) (_v : Word) : State → Out := busWrite .gpio nb ignoredWrite

/-! ### Event status (R148, R149) -/

/-- The read rule of `GPEDSn`. -/
def gpedsRead (n : Nat) : State → Word × State := readDrawing fun s d => pairWord n s.gpio.eds d

/-- The write rule of `GPEDSn`: write 1 to acknowledge. -/
def gpedsWrite (n : Nat) (v : Word) (s : State) : Out :=
  .next (s.withGpio { s.gpio with eds := pairClear n v s.gpio.eds })

/-- `RD GPIO.GPEDS0` (R148) -/
def execRdGpeds0 (nb : Bool) : State → Out := busRead .gpio nb (gpedsRead 0)

/-- `WR GPIO.GPEDS0, v` (R149) -/
def execWrGpeds0 (nb : Bool) (v : Word) : State → Out := busWrite .gpio nb (gpedsWrite 0 v)

/-- `RD GPIO.GPEDS1` (R148) -/
def execRdGpeds1 (nb : Bool) : State → Out := busRead .gpio nb (gpedsRead 1)

/-- `WR GPIO.GPEDS1, v` (R149) -/
def execWrGpeds1 (nb : Bool) (v : Word) : State → Out := busWrite .gpio nb (gpedsWrite 1 v)

/-! ### The six detect enables (R150 to R161) -/

/-- The read rule of `GPRENn`. -/
def gprenRead (n : Nat) : State → Word × State := readDrawing fun s d => pairWord n s.gpio.ren d

/-- The write rule of `GPRENn`. -/
def gprenWrite (n : Nat) (v : Word) (s : State) : Out :=
  .next (s.withGpio { s.gpio with ren := pairWrite n v s.gpio.ren })

/-- `RD GPIO.GPREN0` (R150) -/
def execRdGpren0 (nb : Bool) : State → Out := busRead .gpio nb (gprenRead 0)

/-- `WR GPIO.GPREN0, v` (R151) -/
def execWrGpren0 (nb : Bool) (v : Word) : State → Out := busWrite .gpio nb (gprenWrite 0 v)

/-- `RD GPIO.GPREN1` (R150) -/
def execRdGpren1 (nb : Bool) : State → Out := busRead .gpio nb (gprenRead 1)

/-- `WR GPIO.GPREN1, v` (R151) -/
def execWrGpren1 (nb : Bool) (v : Word) : State → Out := busWrite .gpio nb (gprenWrite 1 v)

/-- The read rule of `GPFENn`. -/
def gpfenRead (n : Nat) : State → Word × State := readDrawing fun s d => pairWord n s.gpio.fen d

/-- The write rule of `GPFENn`. -/
def gpfenWrite (n : Nat) (v : Word) (s : State) : Out :=
  .next (s.withGpio { s.gpio with fen := pairWrite n v s.gpio.fen })

/-- `RD GPIO.GPFEN0` (R152) -/
def execRdGpfen0 (nb : Bool) : State → Out := busRead .gpio nb (gpfenRead 0)

/-- `WR GPIO.GPFEN0, v` (R153) -/
def execWrGpfen0 (nb : Bool) (v : Word) : State → Out := busWrite .gpio nb (gpfenWrite 0 v)

/-- `RD GPIO.GPFEN1` (R152) -/
def execRdGpfen1 (nb : Bool) : State → Out := busRead .gpio nb (gpfenRead 1)

/-- `WR GPIO.GPFEN1, v` (R153) -/
def execWrGpfen1 (nb : Bool) (v : Word) : State → Out := busWrite .gpio nb (gpfenWrite 1 v)

/-- The read rule of `GPHENn`. -/
def gphenRead (n : Nat) : State → Word × State := readDrawing fun s d => pairWord n s.gpio.hen d

/-- The write rule of `GPHENn`. -/
def gphenWrite (n : Nat) (v : Word) (s : State) : Out :=
  .next (s.withGpio { s.gpio with hen := pairWrite n v s.gpio.hen })

/-- `RD GPIO.GPHEN0` (R154) -/
def execRdGphen0 (nb : Bool) : State → Out := busRead .gpio nb (gphenRead 0)

/-- `WR GPIO.GPHEN0, v` (R155) -/
def execWrGphen0 (nb : Bool) (v : Word) : State → Out := busWrite .gpio nb (gphenWrite 0 v)

/-- `RD GPIO.GPHEN1` (R154) -/
def execRdGphen1 (nb : Bool) : State → Out := busRead .gpio nb (gphenRead 1)

/-- `WR GPIO.GPHEN1, v` (R155) -/
def execWrGphen1 (nb : Bool) (v : Word) : State → Out := busWrite .gpio nb (gphenWrite 1 v)

/-- The read rule of `GPLENn`. -/
def gplenRead (n : Nat) : State → Word × State := readDrawing fun s d => pairWord n s.gpio.len d

/-- The write rule of `GPLENn`. -/
def gplenWrite (n : Nat) (v : Word) (s : State) : Out :=
  .next (s.withGpio { s.gpio with len := pairWrite n v s.gpio.len })

/-- `RD GPIO.GPLEN0` (R156) -/
def execRdGplen0 (nb : Bool) : State → Out := busRead .gpio nb (gplenRead 0)

/-- `WR GPIO.GPLEN0, v` (R157) -/
def execWrGplen0 (nb : Bool) (v : Word) : State → Out := busWrite .gpio nb (gplenWrite 0 v)

/-- `RD GPIO.GPLEN1` (R156) -/
def execRdGplen1 (nb : Bool) : State → Out := busRead .gpio nb (gplenRead 1)

/-- `WR GPIO.GPLEN1, v` (R157) -/
def execWrGplen1 (nb : Bool) (v : Word) : State → Out := busWrite .gpio nb (gplenWrite 1 v)

/-- The read rule of `GPARENn`. -/
def gparenRead (n : Nat) : State → Word × State := readDrawing fun s d => pairWord n s.gpio.aren d

/-- The write rule of `GPARENn`. -/
def gparenWrite (n : Nat) (v : Word) (s : State) : Out :=
  .next (s.withGpio { s.gpio with aren := pairWrite n v s.gpio.aren })

/-- `RD GPIO.GPAREN0` (R158) -/
def execRdGparen0 (nb : Bool) : State → Out := busRead .gpio nb (gparenRead 0)

/-- `WR GPIO.GPAREN0, v` (R159) -/
def execWrGparen0 (nb : Bool) (v : Word) : State → Out := busWrite .gpio nb (gparenWrite 0 v)

/-- `RD GPIO.GPAREN1` (R158) -/
def execRdGparen1 (nb : Bool) : State → Out := busRead .gpio nb (gparenRead 1)

/-- `WR GPIO.GPAREN1, v` (R159) -/
def execWrGparen1 (nb : Bool) (v : Word) : State → Out := busWrite .gpio nb (gparenWrite 1 v)

/-- The read rule of `GPAFENn`. -/
def gpafenRead (n : Nat) : State → Word × State := readDrawing fun s d => pairWord n s.gpio.afen d

/-- The write rule of `GPAFENn`. -/
def gpafenWrite (n : Nat) (v : Word) (s : State) : Out :=
  .next (s.withGpio { s.gpio with afen := pairWrite n v s.gpio.afen })

/-- `RD GPIO.GPAFEN0` (R160) -/
def execRdGpafen0 (nb : Bool) : State → Out := busRead .gpio nb (gpafenRead 0)

/-- `WR GPIO.GPAFEN0, v` (R161) -/
def execWrGpafen0 (nb : Bool) (v : Word) : State → Out := busWrite .gpio nb (gpafenWrite 0 v)

/-- `RD GPIO.GPAFEN1` (R160) -/
def execRdGpafen1 (nb : Bool) : State → Out := busRead .gpio nb (gpafenRead 1)

/-- `WR GPIO.GPAFEN1, v` (R161) -/
def execWrGpafen1 (nb : Bool) (v : Word) : State → Out := busWrite .gpio nb (gpafenWrite 1 v)

end Sys2Proof.Machine
end

