-- ==== Sys2Proof/Machine/Pull.lean ====
section
/-! DEFINITION. Pull control in both generations and the pad registers (spec/41_gpio.md R162 to R171). A pull
register of the other generation is refused before any other check (R168, spec/60_exceptions.md R347). -/

namespace Sys2Proof.Machine

/-! ### Legacy: the control register (R162, R163) -/

/-- The read rule of `GPPUD`: the control value last written, after `settle()`. -/
def gppudRead (s : State) : Word × State :=
  readDrawing (fun s d => s.params.layout.gppud.regWord (gppudWord s.gpio.pud d)) (settle s)

/-- An armed latch whose control changes before it fired has its hold time violated (R163). -/
def Arm.violated (m : BitVec 2) : Arm → Arm
  | .armed m' t ok => .armed m' t (ok && m == m')
  | a => a

/-- The write rule of `GPPUD` from a settled state, for a code other than 3. -/
def gppudApply (m : BitVec 2) (s : State) : State :=
  s.withGpio { s.gpio with
    arm := pinVector fun p => (s.gpio.arm.get p).violated m
    pud := m
    pudT := s.cnt
    pudSeen := true }

/-- The write rule of `GPPUD` on a value numbered as R107 numbers it. -/
def gppudStore (v : Word) (s : State) : Out :=
  if v.extractLsb' 0 2 = 3 then .refused .reservedPullCode
  else .next (gppudApply (v.extractLsb' 0 2) (settle s))

/-- The write rule of `GPPUD`. -/
def gppudWrite (v : Word) (s : State) : Out := gppudStore (s.params.layout.gppud.tableWord v) s

/-- `RD GPIO.GPPUD` (R162), Legacy only -/
def execRdGppud (nb : Bool) : State → Out := onlyIn .legacy (busRead .gpio nb gppudRead)

/-- `WR GPIO.GPPUD, v` (R163), Legacy only -/
def execWrGppud (nb : Bool) (v : Word) : State → Out := onlyIn .legacy (busWrite .gpio nb (gppudWrite v))

/-! ### Legacy: the clock registers (R164, R165) -/

/-- The read rule of `GPPUDCLKn`, after `settle()`. -/
def gppudclkRead (n : Nat) (s : State) : Word × State :=
  readDrawing (fun s d => pairWord n s.gpio.pudclk d) (settle s)

/-- Whether the setup time of a clock edge now is met; a draw when the control was not written since reset (R31). -/
def State.setupMet (s : State) (p : Pin) : Bool :=
  if s.gpio.pudSeen then decide (s.params.tPudTicks ≤ (s.cnt - s.gpio.pudT).toNat) else s.freePins.getLsbD p

/-- The pin's clock bit rises (false to true) or falls, from the old and new values of `PUDCLK`. -/
def clockRises (old new : PinBits) (p : Pin) : Bool := !old.getLsbD p && new.getLsbD p

/-- The pin's clock bit falls. -/
def clockFalls (old new : PinBits) (p : Pin) : Bool := old.getLsbD p && !new.getLsbD p

/-- The latch of the pin is armed and has not fired. -/
def Arm.isArmed : Arm → Bool
  | .armed _ _ _ => true
  | _ => false

/-- The state after `PUDCLK` becomes `clk`, without the detectors: a rising bit arms, a falling bit disarms, and a clock
removed while armed leaves any pull (R165). -/
def pudclkEffect (clk : PinBits) (s : State) : State :=
  (s.withGpio { s.gpio with
    arm := pinVector fun p =>
      if clockRises s.gpio.pudclk clk p then .armed s.gpio.pud s.cnt (s.setupMet p)
      else if clockFalls s.gpio.pudclk clk p then .none
      else s.gpio.arm.get p
    pull := pinVector fun p =>
      if clockFalls s.gpio.pudclk clk p && (s.gpio.arm.get p).isArmed then s.freePull p else s.gpio.pull.get p
    pudclk := clk }).drawn

/-- The write rule of `GPPUDCLKn` from a settled state (R165, R176). -/
def gppudclkApply (n : Nat) (v : Word) (s : State) : State :=
  asyncDetect (pullChanged s (pudclkEffect (pairWrite n v s.gpio.pudclk) s)) s
    (pudclkEffect (pairWrite n v s.gpio.pudclk) s)

/-- The write rule of `GPPUDCLKn`. -/
def gppudclkWrite (n : Nat) (v : Word) (s : State) : Out := .next (gppudclkApply n v (settle s))

/-- `RD GPIO.GPPUDCLK0` (R164), Legacy only -/
def execRdGppudclk0 (nb : Bool) : State → Out := onlyIn .legacy (busRead .gpio nb (gppudclkRead 0))

/-- `WR GPIO.GPPUDCLK0, v` (R165), Legacy only -/
def execWrGppudclk0 (nb : Bool) (v : Word) : State → Out := onlyIn .legacy (busWrite .gpio nb (gppudclkWrite 0 v))

/-- `RD GPIO.GPPUDCLK1` (R164), Legacy only -/
def execRdGppudclk1 (nb : Bool) : State → Out := onlyIn .legacy (busRead .gpio nb (gppudclkRead 1))

/-- `WR GPIO.GPPUDCLK1, v` (R165), Legacy only -/
def execWrGppudclk1 (nb : Bool) (v : Word) : State → Out := onlyIn .legacy (busWrite .gpio nb (gppudclkWrite 1 v))

/-! ### Modern: the pull fields (R166, R167) -/

/-- The read rule of `GPPUPPDNn`. -/
def gppuppdnRead (n : Nat) : State → Word × State :=
  readDrawing fun s d => s.params.layout.puppdn.regWord (puppdnWord n s.gpio.puppdn d)

/-- The state after the write of a value numbered as R108 numbers it, without the detectors. -/
def puppdnEffect (n : Nat) (v : Word) (s : State) : State :=
  s.withGpio { s.gpio with puppdn := puppdnWrite n v s.gpio.puppdn }

/-- The write rule of `GPPUPPDNn` on a value numbered as R108 numbers it (R167, R176). -/
def puppdnApply (n : Nat) (v : Word) (s : State) : State :=
  asyncDetect (fun p => inMember 16 n p && pullChanged s (puppdnEffect n v s) p) s (puppdnEffect n v s)

/-- The write rule of `GPPUPPDNn`. -/
def gppuppdnWrite (n : Nat) (v : Word) (s : State) : Out := .next (puppdnApply n (s.params.layout.puppdn.tableWord v) s)

/-- `RD GPIO.GPPUPPDN0` (R166), Modern only -/
def execRdGppuppdn0 (nb : Bool) : State → Out := onlyIn .modern (busRead .gpio nb (gppuppdnRead 0))

/-- `WR GPIO.GPPUPPDN0, v` (R167), Modern only -/
def execWrGppuppdn0 (nb : Bool) (v : Word) : State → Out := onlyIn .modern (busWrite .gpio nb (gppuppdnWrite 0 v))

/-- `RD GPIO.GPPUPPDN1` (R166), Modern only -/
def execRdGppuppdn1 (nb : Bool) : State → Out := onlyIn .modern (busRead .gpio nb (gppuppdnRead 1))

/-- `WR GPIO.GPPUPPDN1, v` (R167), Modern only -/
def execWrGppuppdn1 (nb : Bool) (v : Word) : State → Out := onlyIn .modern (busWrite .gpio nb (gppuppdnWrite 1 v))

/-- `RD GPIO.GPPUPPDN2` (R166), Modern only -/
def execRdGppuppdn2 (nb : Bool) : State → Out := onlyIn .modern (busRead .gpio nb (gppuppdnRead 2))

/-- `WR GPIO.GPPUPPDN2, v` (R167), Modern only -/
def execWrGppuppdn2 (nb : Bool) (v : Word) : State → Out := onlyIn .modern (busWrite .gpio nb (gppuppdnWrite 2 v))

/-- `RD GPIO.GPPUPPDN3` (R166), Modern only -/
def execRdGppuppdn3 (nb : Bool) : State → Out := onlyIn .modern (busRead .gpio nb (gppuppdnRead 3))

/-- `WR GPIO.GPPUPPDN3, v` (R167), Modern only -/
def execWrGppuppdn3 (nb : Bool) (v : Word) : State → Out := onlyIn .modern (busWrite .gpio nb (gppuppdnWrite 3 v))

/-! ### Pads (R170, R171) -/

/-- The read rule of `PADSg`. -/
def padsRead (g : Fin 3) : State → Word × State := readDrawing fun s d => s.params.layout.pads.regWord (padsWord (s.pads.get g) d)

/-- The write rule of `PADSg` on a value and a password numbered as R109 numbers them: ignored unless bits 31:24 carry
the password. -/
def padsStore (g : Fin 3) (v passwd : Word) (s : State) : State :=
  if v.extractLsb' 24 8 = passwd.extractLsb' 24 8 then s.withPads (s.pads.set g (v.extractLsb' 0 5)) else s

/-- The write rule of `PADSg` (R171). -/
def padsWrite (g : Fin 3) (v : Word) (s : State) : Out :=
  .next (padsStore g (s.params.layout.pads.tableWord v) (s.params.layout.pads.tableWord s.params.padPasswd) s)

/-- `RD PADS.PADS0` (R170) -/
def execRdPads0 (nb : Bool) : State → Out := busRead .pads nb (padsRead 0)

/-- `WR PADS.PADS0, v` (R171) -/
def execWrPads0 (nb : Bool) (v : Word) : State → Out := busWrite .pads nb (padsWrite 0 v)

/-- `RD PADS.PADS1` (R170) -/
def execRdPads1 (nb : Bool) : State → Out := busRead .pads nb (padsRead 1)

/-- `WR PADS.PADS1, v` (R171) -/
def execWrPads1 (nb : Bool) (v : Word) : State → Out := busWrite .pads nb (padsWrite 1 v)

/-- `RD PADS.PADS2` (R170) -/
def execRdPads2 (nb : Bool) : State → Out := busRead .pads nb (padsRead 2)

/-- `WR PADS.PADS2, v` (R171) -/
def execWrPads2 (nb : Bool) (v : Word) : State → Out := busWrite .pads nb (padsWrite 2 v)

end Sys2Proof.Machine
end

