-- ==== Sys2Proof/Machine/Spi0.lean ====
section
/-! DEFINITION. The registers of the primary SPI (spec/43_spi0.md R201 to R209). Its engine is in
Machine/Agents.lean. -/

namespace Sys2Proof.Machine

/-- The read rule of `SPI0.CS`, with the status bits of this instant (R201). -/
def csRead : State → Word × State := readDrawing fun s d => s.params.layout.cs.regWord (csWord s.spi0 s.done s.rxd s.txd d)

/-- The written value changes the chip-select, mode or polarity fields (R202). -/
def csConfigChanges (p : Spi0) (v : Word) : Bool :=
  !(v.extractLsb' 0 2 == p.cs && v.getLsbD 2 == p.cpha && v.getLsbD 3 == p.cpol
    && v.getLsbD 21 == p.cspol0 && v.getLsbD 22 == p.cspol1 && v.getLsbD 23 == p.cspol2)

/-- SPI0 after `WR SPI0.CS, v` (R202 to R205): the clears, the stored fields, then `TA`; read-only and reserved
positions are ignored. -/
def csApply (p : Spi0) (v : Word) : Spi0 :=
  { p with
    txq := if v.getLsbD 4 then [] else p.txq
    rxq := if v.getLsbD 5 then [] else p.rxq
    cs := v.extractLsb' 0 2
    cpha := v.getLsbD 2
    cpol := v.getLsbD 3
    cspol0 := v.getLsbD 21
    cspol1 := v.getLsbD 22
    cspol2 := v.getLsbD 23
    csOther := csOtherOf v
    ta := v.getLsbD 7 }

/-- The write rule of `SPI0.CS` on a value numbered as R111 numbers it (R202). -/
def csStore (v : Word) (s : State) : Out :=
  if v.extractLsb' 0 2 = 3 then .refused .reservedChipSelect
  else if s.spi0.ta && v.getLsbD 7 && csConfigChanges s.spi0 v then .refused .configChangeDuringTransfer
  else .next (s.withSpi0 (csApply s.spi0 v))

/-- The write rule of `SPI0.CS` (R202). -/
def csWrite (v : Word) (s : State) : Out := csStore (s.params.layout.cs.tableWord v) s

/-- The read rule of `SPI0.FIFO`: pops a byte; a draw, with no change, when there is none (R206). -/
def fifoRead (s : State) : Word × State :=
  match s.spi0.rxq with
  | b :: rest => (s.params.layout.fifo.regWord (b.setWidth 32), s.withSpi0 { s.spi0 with rxq := rest })
  | [] => (s.freeWord, s.drawn)

/-- The write rule of `SPI0.FIFO` on a value numbered as R112 numbers it: pushes a byte (R207). -/
def fifoStore (v : Word) (s : State) : Out :=
  if s.spi0.ta = false then .refused .fifoWriteWhileIdle
  else if s.spi0.txq.length = s.params.spi0Depth then .refused .txFifoOverflow
  else .next (s.withSpi0 { s.spi0 with txq := s.spi0.txq ++ [v.extractLsb' 0 8] })

/-- The write rule of `SPI0.FIFO` (R207). -/
def fifoWrite (v : Word) (s : State) : Out := fifoStore (s.params.layout.fifo.tableWord v) s

/-- The read rule of `SPI0.CLK` (R208). -/
def clkRead : State → Word × State := readPlain fun s => s.params.layout.clk.regWord (s.spi0.cdiv.setWidth 32)

/-- The write rule of `SPI0.CLK` on a value numbered as R112 numbers it (R209). -/
def clkStore (v : Word) (s : State) : Out :=
  if s.spi0.ta then .refused .configChangeDuringTransfer
  else .next (s.withSpi0 { s.spi0 with cdiv := v.extractLsb' 0 16 })

/-- The write rule of `SPI0.CLK` (R209). -/
def clkWrite (v : Word) (s : State) : Out := clkStore (s.params.layout.clk.tableWord v) s

/-- `RD SPI0.CS` (R201) -/
def execRdSpi0Cs (nb : Bool) : State → Out := busRead .spi0 nb csRead

/-- `WR SPI0.CS, v` (R202) -/
def execWrSpi0Cs (nb : Bool) (v : Word) : State → Out := busWrite .spi0 nb (csWrite v)

/-- `RD SPI0.FIFO` (R206) -/
def execRdSpi0Fifo (nb : Bool) : State → Out := busRead .spi0 nb fifoRead

/-- `WR SPI0.FIFO, v` (R207) -/
def execWrSpi0Fifo (nb : Bool) (v : Word) : State → Out := busWrite .spi0 nb (fifoWrite v)

/-- `RD SPI0.CLK` (R208) -/
def execRdSpi0Clk (nb : Bool) : State → Out := busRead .spi0 nb clkRead

/-- `WR SPI0.CLK, v` (R209) -/
def execWrSpi0Clk (nb : Bool) (v : Word) : State → Out := busWrite .spi0 nb (clkWrite v)

end Sys2Proof.Machine
end

