-- ==== Sys2Proof/Machine/Timer.lean ====
section
/-! DEFINITION. The free-running counter's registers (spec/42_timer.md R192 to R194). Its step is in
Machine/Agents.lean. -/

namespace Sys2Proof.Machine

/-- A write to either half of the counter has no meaning (R194). -/
def timerWrite (_s : State) : Out := .refused .timerWrite

/-- `RD ST.CLO` (R192) -/
def execRdStClo (nb : Bool) : State → Out := busRead .st nb (readPlain fun s => s.cnt.extractLsb' 0 32)

/-- `RD ST.CHI` (R193) -/
def execRdStChi (nb : Bool) : State → Out := busRead .st nb (readPlain fun s => s.cnt.extractLsb' 32 32)

/-- `WR ST.CLO, v` (R194): always refused. -/
def execWrStClo (nb : Bool) (_v : Word) : State → Out := busWrite .st nb timerWrite

/-- `WR ST.CHI, v` (R194): always refused. -/
def execWrStChi (nb : Bool) (_v : Word) : State → Out := busWrite .st nb timerWrite

end Sys2Proof.Machine
end

