-- ==== Sys2Proof/Machine/Dispatch.lean ====
section
/-! DEFINITION. One arm per instruction: the meaning of each transaction. -/

namespace Sys2Proof.Machine

def exec (i : Instr) (s : State) : Host.Outcome State Fault Refusal :=
  match i with
  | .rdGpfsel0 nb => Sys2Proof.Machine.execRdGpfsel0 nb s
  | .wrGpfsel0 nb v => Sys2Proof.Machine.execWrGpfsel0 nb v s
  | .rdGpfsel1 nb => Sys2Proof.Machine.execRdGpfsel1 nb s
  | .wrGpfsel1 nb v => Sys2Proof.Machine.execWrGpfsel1 nb v s
  | .rdGpfsel2 nb => Sys2Proof.Machine.execRdGpfsel2 nb s
  | .wrGpfsel2 nb v => Sys2Proof.Machine.execWrGpfsel2 nb v s
  | .rdGpfsel3 nb => Sys2Proof.Machine.execRdGpfsel3 nb s
  | .wrGpfsel3 nb v => Sys2Proof.Machine.execWrGpfsel3 nb v s
  | .rdGpfsel4 nb => Sys2Proof.Machine.execRdGpfsel4 nb s
  | .wrGpfsel4 nb v => Sys2Proof.Machine.execWrGpfsel4 nb v s
  | .rdGpfsel5 nb => Sys2Proof.Machine.execRdGpfsel5 nb s
  | .wrGpfsel5 nb v => Sys2Proof.Machine.execWrGpfsel5 nb v s
  | .rdGpset0 nb => Sys2Proof.Machine.execRdGpset0 nb s
  | .wrGpset0 nb v => Sys2Proof.Machine.execWrGpset0 nb v s
  | .rdGpset1 nb => Sys2Proof.Machine.execRdGpset1 nb s
  | .wrGpset1 nb v => Sys2Proof.Machine.execWrGpset1 nb v s
  | .rdGpclr0 nb => Sys2Proof.Machine.execRdGpclr0 nb s
  | .wrGpclr0 nb v => Sys2Proof.Machine.execWrGpclr0 nb v s
  | .rdGpclr1 nb => Sys2Proof.Machine.execRdGpclr1 nb s
  | .wrGpclr1 nb v => Sys2Proof.Machine.execWrGpclr1 nb v s
  | .rdGplev0 nb => Sys2Proof.Machine.execRdGplev0 nb s
  | .wrGplev0 nb v => Sys2Proof.Machine.execWrGplev0 nb v s
  | .rdGplev1 nb => Sys2Proof.Machine.execRdGplev1 nb s
  | .wrGplev1 nb v => Sys2Proof.Machine.execWrGplev1 nb v s
  | .rdGpeds0 nb => Sys2Proof.Machine.execRdGpeds0 nb s
  | .wrGpeds0 nb v => Sys2Proof.Machine.execWrGpeds0 nb v s
  | .rdGpeds1 nb => Sys2Proof.Machine.execRdGpeds1 nb s
  | .wrGpeds1 nb v => Sys2Proof.Machine.execWrGpeds1 nb v s
  | .rdGpren0 nb => Sys2Proof.Machine.execRdGpren0 nb s
  | .wrGpren0 nb v => Sys2Proof.Machine.execWrGpren0 nb v s
  | .rdGpren1 nb => Sys2Proof.Machine.execRdGpren1 nb s
  | .wrGpren1 nb v => Sys2Proof.Machine.execWrGpren1 nb v s
  | .rdGpfen0 nb => Sys2Proof.Machine.execRdGpfen0 nb s
  | .wrGpfen0 nb v => Sys2Proof.Machine.execWrGpfen0 nb v s
  | .rdGpfen1 nb => Sys2Proof.Machine.execRdGpfen1 nb s
  | .wrGpfen1 nb v => Sys2Proof.Machine.execWrGpfen1 nb v s
  | .rdGphen0 nb => Sys2Proof.Machine.execRdGphen0 nb s
  | .wrGphen0 nb v => Sys2Proof.Machine.execWrGphen0 nb v s
  | .rdGphen1 nb => Sys2Proof.Machine.execRdGphen1 nb s
  | .wrGphen1 nb v => Sys2Proof.Machine.execWrGphen1 nb v s
  | .rdGplen0 nb => Sys2Proof.Machine.execRdGplen0 nb s
  | .wrGplen0 nb v => Sys2Proof.Machine.execWrGplen0 nb v s
  | .rdGplen1 nb => Sys2Proof.Machine.execRdGplen1 nb s
  | .wrGplen1 nb v => Sys2Proof.Machine.execWrGplen1 nb v s
  | .rdGparen0 nb => Sys2Proof.Machine.execRdGparen0 nb s
  | .wrGparen0 nb v => Sys2Proof.Machine.execWrGparen0 nb v s
  | .rdGparen1 nb => Sys2Proof.Machine.execRdGparen1 nb s
  | .wrGparen1 nb v => Sys2Proof.Machine.execWrGparen1 nb v s
  | .rdGpafen0 nb => Sys2Proof.Machine.execRdGpafen0 nb s
  | .wrGpafen0 nb v => Sys2Proof.Machine.execWrGpafen0 nb v s
  | .rdGpafen1 nb => Sys2Proof.Machine.execRdGpafen1 nb s
  | .wrGpafen1 nb v => Sys2Proof.Machine.execWrGpafen1 nb v s
  | .rdGppud nb => Sys2Proof.Machine.execRdGppud nb s
  | .wrGppud nb v => Sys2Proof.Machine.execWrGppud nb v s
  | .rdGppudclk0 nb => Sys2Proof.Machine.execRdGppudclk0 nb s
  | .wrGppudclk0 nb v => Sys2Proof.Machine.execWrGppudclk0 nb v s
  | .rdGppudclk1 nb => Sys2Proof.Machine.execRdGppudclk1 nb s
  | .wrGppudclk1 nb v => Sys2Proof.Machine.execWrGppudclk1 nb v s
  | .rdGppuppdn0 nb => Sys2Proof.Machine.execRdGppuppdn0 nb s
  | .wrGppuppdn0 nb v => Sys2Proof.Machine.execWrGppuppdn0 nb v s
  | .rdGppuppdn1 nb => Sys2Proof.Machine.execRdGppuppdn1 nb s
  | .wrGppuppdn1 nb v => Sys2Proof.Machine.execWrGppuppdn1 nb v s
  | .rdGppuppdn2 nb => Sys2Proof.Machine.execRdGppuppdn2 nb s
  | .wrGppuppdn2 nb v => Sys2Proof.Machine.execWrGppuppdn2 nb v s
  | .rdGppuppdn3 nb => Sys2Proof.Machine.execRdGppuppdn3 nb s
  | .wrGppuppdn3 nb v => Sys2Proof.Machine.execWrGppuppdn3 nb v s
  | .rdPads0 nb => Sys2Proof.Machine.execRdPads0 nb s
  | .wrPads0 nb v => Sys2Proof.Machine.execWrPads0 nb v s
  | .rdPads1 nb => Sys2Proof.Machine.execRdPads1 nb s
  | .wrPads1 nb v => Sys2Proof.Machine.execWrPads1 nb v s
  | .rdPads2 nb => Sys2Proof.Machine.execRdPads2 nb s
  | .wrPads2 nb v => Sys2Proof.Machine.execWrPads2 nb v s
  | .rdStClo nb => Sys2Proof.Machine.execRdStClo nb s
  | .wrStClo nb v => Sys2Proof.Machine.execWrStClo nb v s
  | .rdStChi nb => Sys2Proof.Machine.execRdStChi nb s
  | .wrStChi nb v => Sys2Proof.Machine.execWrStChi nb v s
  | .rdSpi0Cs nb => Sys2Proof.Machine.execRdSpi0Cs nb s
  | .wrSpi0Cs nb v => Sys2Proof.Machine.execWrSpi0Cs nb v s
  | .rdSpi0Fifo nb => Sys2Proof.Machine.execRdSpi0Fifo nb s
  | .wrSpi0Fifo nb v => Sys2Proof.Machine.execWrSpi0Fifo nb v s
  | .rdSpi0Clk nb => Sys2Proof.Machine.execRdSpi0Clk nb s
  | .wrSpi0Clk nb v => Sys2Proof.Machine.execWrSpi0Clk nb v s
  | .rdAuxEnb nb => Sys2Proof.Machine.execRdAuxEnb nb s
  | .wrAuxEnb nb v => Sys2Proof.Machine.execWrAuxEnb nb v s
  | .rdSpi1Cntl0 nb => Sys2Proof.Machine.execRdSpi1Cntl0 nb s
  | .wrSpi1Cntl0 nb v => Sys2Proof.Machine.execWrSpi1Cntl0 nb v s
  | .rdSpi1Cntl1 nb => Sys2Proof.Machine.execRdSpi1Cntl1 nb s
  | .wrSpi1Cntl1 nb v => Sys2Proof.Machine.execWrSpi1Cntl1 nb v s
  | .rdSpi1Stat nb => Sys2Proof.Machine.execRdSpi1Stat nb s
  | .wrSpi1Stat nb v => Sys2Proof.Machine.execWrSpi1Stat nb v s
  | .rdSpi1Io nb => Sys2Proof.Machine.execRdSpi1Io nb s
  | .wrSpi1Io nb v => Sys2Proof.Machine.execWrSpi1Io nb v s
  | .rdSpi1Txhold nb => Sys2Proof.Machine.execRdSpi1Txhold nb s
  | .wrSpi1Txhold nb v => Sys2Proof.Machine.execWrSpi1Txhold nb v s

end Sys2Proof.Machine
end

