-- ==== Sys2Proof/Machine/Sequences.lean ====
section
/-! DEFINITION. The access sequences of the source's software as programs of host operations
(spec/40_register_access.md R134; spec/45_sequences_gpio_timer.md; spec/46_sequences_spi.md): what a
pseudo-instruction requires, how it unfolds into transactions, and what it does with each value read. Every
transaction is barriered unless the rule writes it `.nb`. -/

namespace Sys2Proof.Machine

/-! ### Register-bit names (spec/46_sequences_spi.md preamble), numbered as R111, R113 and R114 number the bits -/

/-- `SPI0.CS` `TA` -/
def csTA : Word := 0x80
/-- `SPI0.CS` `CLEAR_TX | CLEAR_RX` -/
def csCLEAR : Word := 0x30
/-- `SPI0.CS` `DONE` -/
def csDONE : Word := 0x10000
/-- `SPI0.CS` `RXD` -/
def csRXD : Word := 0x20000
/-- `SPI0.CS` `TXD` -/
def csTXD : Word := 0x40000
/-- `SPI1.STAT` `BUSY` -/
def statBUSY : Word := 0x40
/-- `SPI1.STAT` `RX_EMPTY` -/
def statRXEMPTY : Word := 0x80
/-- `SPI1.STAT` `TX_FULL` -/
def statTXFULL : Word := 0x400
/-- `SPI1.CNTL0` `CLEARFIFO` -/
def cntl0CLEARFIFO : Word := 0x200
/-- `SPI1.CNTL1` `MSBF_IN` -/
def cntl1MSBFIN : Word := 0x2

/-! ### Which register a pin operand selects -/

/-- `GPFSEL(pin/10)` (R274). -/
def fselReg (pin : Nat) : Reg := .gpfsel (Fin.ofNat 6 (pin / 10))

/-- `GPPUPPDN(pin/16)` (R284). -/
def puppdnReg (pin : Nat) : Reg := .gppuppdn (Fin.ofNat 4 (pin / 16))

/-- Member `pin/32` of a one-bit register pair: `reg(GPxxx, p)`. -/
def pairReg (pair : Fin 2 → Reg) (pin : Nat) : Reg := pair (Fin.ofNat 2 (pin / 32))

/-- The enable register pair of a detector (R278). -/
def EventKind.pair : EventKind → Fin 2 → Reg
  | .rising, n => .gpren n
  | .falling, n => .gpfen n
  | .high, n => .gphen n
  | .low, n => .gplen n
  | .asyncRising, n => .gparen n
  | .asyncFalling, n => .gpafen n

/-! ### Pieces of sequences -/

/-- The value `set_bits` writes back (R134). -/
def maskedMerge (t value mask : Word) : Word := (t &&& ~~~mask) ||| (value &&& mask)

/-- `set_bits(reg, value, mask)` (R134). -/
def setBitsOps (nb : Bool) (r : Reg) (value mask : Word) : List HostOp := [.rd nb r (.setBits nb r value mask)]

/-- `while (RD r & mask) … do nothing`, until "some bit of `mask` is set" is `want`. -/
def pollOps (nb : Bool) (r : Reg) (mask : Word) (want : Bool) : List HostOp := [.rd nb r (.poll nb r mask want)]

/-- `select_function(pin, mode)` (R274). -/
def selectOps (c : FselCodes) (pin : Nat) (mode : FunSel) : List HostOp :=
  setBitsOps false (fselReg pin) ((c.code mode).setWidth 32 <<< shift3 pin) (7#32 <<< shift3 pin)

/-- `delay_micros(offset, duration)` with the sum already taken (R291). -/
def delayUntilOps (target : BitVec 64) : List HostOp := [.readCounter, .delayCheck target]

/-- `delay(duration)` (R292). -/
def delayOps (duration : BitVec 64) : List HostOp := [.readCounter, .delayStart duration]

/-- `GPPUD <- PUD_CODE_LEGACY(mode)` (R283, R287). -/
def gppudOp (l : BitLayout) (c : PudCodes) (mode : Pull) : HostOp :=
  .wr false .gppud (l.gppud.regWord ((c.code mode).setWidth 32))

/-- `set_pull` under the Legacy protocol (R283). -/
def setPullLegacyOps (l : BitLayout) (c : PudCodes) (pin : Nat) (mode : Pull) : List HostOp :=
  [gppudOp l c mode] ++ delayOps pudDelay
    ++ [.wr false (pairReg .gppudclk pin) (pinMask pin)] ++ delayOps pudDelay
    ++ [gppudOp l c .off, .wr false (pairReg .gppudclk pin) 0]

/-- `set_pull` under the Modern protocol (R284). -/
def setPullModernOps (l : BitLayout) (pin : Nat) (mode : Pull) : List HostOp :=
  setBitsOps false (puppdnReg pin) (l.puppdn.regWord (mode.code.setWidth 32 <<< shift2 pin))
    (l.puppdn.regWord (3#32 <<< shift2 pin))

/-- `set_bits` on `SPI0.CS` with value and mask numbered as R111 numbers them. -/
def csSetOps (l : BitLayout) (value mask : Word) : List HostOp :=
  setBitsOps false .cs (l.cs.regWord value) (l.cs.regWord mask)

/-- The start of every SPI0 transfer: clear the FIFOs, then set `TA` (R308 to R310). -/
def spi0OpenOps (l : BitLayout) : List HostOp := csSetOps l csCLEAR csCLEAR ++ csSetOps l csTA csTA

/-- The end of every SPI0 transfer: clear `TA` (R308 to R310). -/
def spi0CloseOps (l : BitLayout) : List HostOp := csSetOps l 0 csTA

/-- The word written to `SPI0.FIFO` for a byte under a bit order (R308 to R310, R331). -/
def fifoByteWord (l : BitLayout) (o : BitOrder) (b : Byte) : Word := l.fifo.regWord ((orderByte o b).setWidth 32)

/-- `SPI0.CLK <- v` (R302, R303). -/
def clkOp (l : BitLayout) (v : Nat) : HostOp := .wr false .clk (l.clk.regWord (BitVec.ofNat 32 v))

/-- One byte of `spi0_write_buf` (R310). -/
def spi0WriteByteOps (l : BitLayout) (o : BitOrder) (b : Byte) : List HostOp :=
  pollOps false .cs (l.cs.regWord csTXD) true ++ [.wr true .fifo (fifoByteWord l o b), .rd false .cs .spi0Flush]

/-- `aux_reset()` (R316). -/
def auxResetOps (l : BitLayout) : List HostOp := [.wr false .cntl1 0, .wr false .cntl0 (l.cntl0.regWord cntl0CLEARFIFO)]

/-- `CNTL0_WORD(x)`, numbered as R113 numbers the bits (R319). -/
def cntl0Control (speed : Nat) (x : Word) : Word :=
  (BitVec.ofNat 32 speed <<< 20) ||| 0x00060000#32 ||| 0x800#32 ||| 0x40#32 ||| x

/-- The control word of an SPI1 transfer, `SPI1.CNTL0 <- CNTL0_WORD(x)` (R319). -/
def auxControl0Op (l : BitLayout) (speed : Nat) (x : Word) : HostOp :=
  .wr false .cntl0 (l.cntl0.regWord (cntl0Control speed x))

/-- `SPI1.CNTL1 <- MSBF_IN` (R319). -/
def auxControl1Op (l : BitLayout) : HostOp := .wr false .cntl1 (l.cntl1.regWord cntl1MSBFIN)

/-- Wait for transmit-not-full (R320, R321). -/
def auxWaitNotFullOps (l : BitLayout) : List HostOp := pollOps false .stat (l.stat.regWord statTXFULL) false

/-- Wait for not-busy (R321, R323). -/
def auxWaitNotBusyOps (l : BitLayout) : List HostOp := pollOps false .stat (l.stat.regWord statBUSY) false

/-- `aux_calc_divider(hz)` (R317). -/
def auxDivider (p : Params) (hz : Nat) : Nat :=
  let h := min (max hz p.auxClockMin) p.auxClockMax
  min ((p.coreClockHz + (2 * h - 1)) / (2 * h) - 1) p.auxSpeedMax

/-- What is left of a buffer cut into groups of `AUX_GROUP_MAX`, with `g` the group begun. -/
def groupsFrom (g : List Byte) : List Byte → List (List Byte)
  | [] => if g = [] then [] else [g]
  | b :: rest => if g.length + 1 = auxGroupMax then (g ++ [b]) :: groupsFrom [] rest else groupsFrom (g ++ [b]) rest

/-- A buffer cut into groups of `AUX_GROUP_MAX` bytes and a last one of at most as many (R256). -/
def byteGroups (tx : List Byte) : List (List Byte) := groupsFrom [] tx

/-- Where a group goes: the hold register while more bytes remain, else the direct output register (R256). -/
def groupReg (last : Bool) : Reg := if last then .io else .txhold

/-- The word of a group under a bit order (R115, R331). -/
def groupWord (o : BitOrder) (g : List Byte) : Word := packGroup (g.map (orderByte o))

/-- The groups of `aux_write_buf` (R321). -/
def auxWriteGroupsOps (l : BitLayout) (o : BitOrder) : List (List Byte) → List HostOp
  | [] => []
  | g :: gs =>
    auxWaitNotFullOps l ++ [.wr false (groupReg gs.isEmpty) (groupWord o g)]
      ++ auxWaitNotBusyOps l ++ [.rd false .io .discard] ++ auxWriteGroupsOps l o gs

/-! ### Calls -/

/-- A pin operand is checked against 0 to 53 (R273). -/
def checkPin (pin : Nat) : Option Refusal := if pin < numPins then none else some .pinOutOfRange

/-- The operands a sequence refuses (R273, R283, R302). That `get_pull` checks its pin in the Legacy generation too is
DEDUCED from R273 against R285; that a pin out of range comes before an unrecognised mode is a DESIGN CHOICE, no rule
orders them (assumption log entry 20). -/
def Call.operandRefusal (p : Params) (v : PudVariant) : Call → Option Refusal
  | .selectFunction pin _ | .write pin _ | .readLevel pin | .eventEnable _ pin | .eventDisable _ pin
  | .eventDetected pin | .clearEvent pin | .pudclk pin _ | .getPull pin => checkPin pin
  | .getPadControl g | .setPadControl g _ => if g < p.padGroups.length then none else some .padGroupOutOfRange
  | .setPull pin mode =>
    match checkPin pin, v, mode with
    | some r, _, _ => some r
    | none, .legacy, none => some .invalidPullMode
    | none, .legacy, some _ => none
    | none, .modern, _ => none
  | .spi0SetSpeedHz hz => if hz = 0 then some .zeroFrequency else none
  | .setBits _ _ _ _ | .init _ | .close | .writeMask _ _ | .pud _ | .readCounter | .delayMicros _ _ | .delay _
  | .spi0Begin | .spi0End | .spi0SetDivider _ | .spi0SetMode _ | .spi0ChipSelect _ | .spi0SetCsPolarity _ _
  | .setBitOrder _ | .spi0Transfer _ | .spi0TransferBuf _ | .spi0WriteBuf _ | .auxBegin | .auxReset
  | .auxCalcDivider _ | .auxSetDivider _ | .auxWrite16 _ | .auxWriteBuf _ | .auxTransferBuf _ | .auxTransfer _
  | .bitReverse _ | .order _ => none

/-- The blocks whose handles a sequence needs mapped, else `UnmappedAccess` (R272, R344). -/
def Call.needs (v : PudVariant) : Call → List Block
  | .setBits _ r _ _ => [r.block]
  | .selectFunction _ _ | .write _ _ | .writeMask _ _ | .readLevel _ | .eventEnable _ _ | .eventDisable _ _
  | .eventDetected _ | .clearEvent _ | .setPull _ _ | .pudclk _ _ | .spi0End => [.gpio]
  | .getPull _ => match v with | .legacy => [] | .modern => [.gpio]
  | .pud _ => match v with | .legacy => [.gpio] | .modern => []
  | .spi0Begin => [.gpio, .spi0]
  | .spi0SetSpeedHz _ | .spi0SetDivider _ | .spi0SetMode _ | .spi0ChipSelect _ | .spi0SetCsPolarity _ _
  | .spi0Transfer _ | .spi0TransferBuf _ | .spi0WriteBuf _ => [.spi0]
  | .auxBegin => [.gpio, .aux, .spi1]
  | .auxReset | .auxWrite16 _ | .auxWriteBuf _ | .auxTransferBuf _ | .auxTransfer _ => [.spi1]
  | .init _ | .close | .getPadControl _ | .setPadControl _ _ | .readCounter | .delayMicros _ _ | .delay _
  | .setBitOrder _ | .auxCalcDivider _ | .auxSetDivider _ | .bitReverse _ | .order _ => []

/-- Whether the handle of a block is mapped (R46). -/
def Handles.mapped (h : Handles) : Block → Bool
  | .gpio => h.gpio
  | .clock => h.clock
  | .pads => h.pads
  | .spi0 => h.spi0
  | .st => h.st
  | .aux => h.aux
  | .spi1 => h.spi1

/-- Every handle is mapped (R270). -/
def Handles.allMapped (h : Handles) : Bool := h.gpio && h.clock && h.pads && h.spi0 && h.st && h.aux && h.spi1

/-- The unfolding of a pseudo-instruction into host operations. -/
def Call.ops (p : Params) (c : DriverCtx) : Call → List HostOp
  | .setBits nb r value mask => setBitsOps nb r value mask
  | .init h => [.answer (if h.allMapped then .success else .failure)]
  | .close => [.answer .success]
  | .selectFunction pin mode => selectOps p.fselCodes pin mode
  | .write pin level => [.wr false (pairReg (if level then .gpset else .gpclr) pin) (pinMask pin)]
  | .writeMask value mask => [.wr false (.gpset 0) (value &&& mask), .wr false (.gpclr 0) (~~~value &&& mask)]
  | .readLevel pin => [.rd false (pairReg .gplev pin) (.level (pinMask pin))]
  | .eventEnable e pin => setBitsOps false (pairReg e.pair pin) (pinMask pin) (pinMask pin)
  | .eventDisable e pin => setBitsOps false (pairReg e.pair pin) 0 (pinMask pin)
  | .eventDetected pin => [.rd false (pairReg .gpeds pin) (.flag (pinMask pin))]
  | .clearEvent pin => [.wr false (pairReg .gpeds pin) (pinMask pin)]
  | .getPadControl g => if c.handles.pads then [.rd false (.pads (Fin.ofNat 3 g)) .word] else [.answer (.word 0)]
  | .setPadControl g bits => if c.handles.pads then [.wr false (.pads (Fin.ofNat 3 g)) (bits ||| p.padPasswd)] else []
  | .setPull pin mode =>
    match mode, c.variant with
    | some m, .legacy => setPullLegacyOps p.layout p.pudCodes pin m
    | some m, .modern => setPullModernOps p.layout pin m
    | none, _ => []
  | .getPull pin =>
    match c.variant with
    | .legacy => [.answer (.pull .error)]
    | .modern => [.rd false (puppdnReg pin) (.pull (shift2 pin))]
  | .pud mode =>
    match c.variant with
    | .legacy => [gppudOp p.layout p.pudCodes mode]
    | .modern => []
  | .pudclk pin on =>
    match c.variant with
    | .legacy => [.wr false (pairReg .gppudclk pin) (if on then pinMask pin else 0)]
    | .modern => if on then setPullModernOps p.layout pin c.pudCompat else []
  | .readCounter => [.readCounter, .answerCount]
  | .delayMicros offset duration => delayUntilOps (offset + duration)
  | .delay duration => delayOps duration
  | .spi0Begin =>
    p.spi0Pins.flatMap (fun q => selectOps p.fselCodes q p.spi0Alt)
      ++ [.wr false .cs 0, .wr false .cs (p.layout.cs.regWord csCLEAR)]
  | .spi0End => p.spi0Pins.flatMap fun q => selectOps p.fselCodes q .input
  | .spi0SetSpeedHz hz => [clkOp p.layout (p.coreClockHz / hz - p.coreClockHz / hz % 2)]
  | .spi0SetDivider d => [clkOp p.layout d]
  | .spi0SetMode m => csSetOps p.layout (m.setWidth 32 <<< 2) (3#32 <<< 2)
  | .spi0ChipSelect cs => csSetOps p.layout (cs.setWidth 32) 3
  | .spi0SetCsPolarity i active =>
    csSetOps p.layout ((if active then 1#32 else 0#32) <<< (21 + i.val)) (1#32 <<< (21 + i.val))
  | .setBitOrder _ => []
  | .spi0Transfer b =>
    spi0OpenOps p.layout ++ pollOps false .cs (p.layout.cs.regWord csTXD) true
      ++ [.wr true .fifo (fifoByteWord p.layout c.bitOrder b)] ++ pollOps true .cs (p.layout.cs.regWord csDONE) true
      ++ [.rd true .fifo .fifoByte] ++ spi0CloseOps p.layout ++ [.answerRxByte]
  | .spi0TransferBuf tx =>
    spi0OpenOps p.layout ++ [.spi0Loop tx tx.length] ++ pollOps true .cs (p.layout.cs.regWord csDONE) true
      ++ spi0CloseOps p.layout ++ [.answerRx]
  | .spi0WriteBuf tx =>
    spi0OpenOps p.layout ++ tx.flatMap (spi0WriteByteOps p.layout c.bitOrder) ++ [.rd true .cs .spi0Done]
      ++ spi0CloseOps p.layout
  | .auxBegin =>
    p.spi1Pins.flatMap (fun q => selectOps p.fselCodes q p.spi1Alt)
      ++ setBitsOps false .enb (p.layout.enb.regWord 2) (p.layout.enb.regWord 2) ++ auxResetOps p.layout
  | .auxReset => auxResetOps p.layout
  | .auxCalcDivider hz => [.answer (.speed (auxDivider p hz))]
  | .auxSetDivider _ => []
  | .auxWrite16 d =>
    [auxControl0Op p.layout c.auxSpeed 16, auxControl1Op p.layout] ++ auxWaitNotFullOps p.layout
      ++ [.wr false .io (d ++ 0#16)]
  | .auxWriteBuf tx =>
    [auxControl0Op p.layout c.auxSpeed 0x4000, auxControl1Op p.layout]
      ++ auxWriteGroupsOps p.layout c.bitOrder (byteGroups tx)
  | .auxTransferBuf tx =>
    [auxControl0Op p.layout c.auxSpeed 0x4000, auxControl1Op p.layout, .auxLoop tx tx.length, .answerRx]
  | .auxTransfer b =>
    [auxControl1Op p.layout, auxControl0Op p.layout c.auxSpeed (0x400 ||| 8),
      .wr false .io (orderByte c.bitOrder b ++ 0#24)]
      ++ auxWaitNotBusyOps p.layout ++ [.rd false .io .saveByte] ++ auxResetOps p.layout ++ [.answerRxByte]
  | .bitReverse b => [.answer (.byte (Machine.bitReverse b))]
  | .order b => [.answer (.byte (orderByte c.bitOrder b))]

/-- The driver context a call leaves (R270, R287, R307, R315, R318). -/
def Call.ctxAfter (p : Params) (c : DriverCtx) : Call → DriverCtx
  | .init h => { c with handles := h, variant := p.variant }
  | .pud mode => match c.variant with | .legacy => c | .modern => { c with pudCompat := mode }
  | .setBitOrder o => { c with bitOrder := o }
  | .auxSetDivider speed => { c with auxSpeed := speed }
  | .auxBegin => { c with auxSpeed := auxDivider p 1000000 }
  | .setBits _ _ _ _ | .close | .selectFunction _ _ | .write _ _ | .writeMask _ _ | .readLevel _
  | .eventEnable _ _ | .eventDisable _ _ | .eventDetected _ | .clearEvent _ | .getPadControl _
  | .setPadControl _ _ | .setPull _ _ | .getPull _ | .pudclk _ _ | .readCounter | .delayMicros _ _ | .delay _
  | .spi0Begin | .spi0End | .spi0SetSpeedHz _ | .spi0SetDivider _ | .spi0SetMode _ | .spi0ChipSelect _
  | .spi0SetCsPolarity _ _ | .spi0Transfer _ | .spi0TransferBuf _ | .spi0WriteBuf _ | .auxReset
  | .auxCalcDivider _ | .auxWrite16 _ | .auxWriteBuf _ | .auxTransferBuf _ | .auxTransfer _ | .bitReverse _
  | .order _ => c

/-- The state with operations put before the rest of the host's program. -/
def State.push (s : State) (ops : List HostOp) : State := s.withHost { s.host with todo := ops ++ s.host.todo }

/-- The state with the answer of the running call. -/
def State.answer (s : State) (a : Answer) : State := s.withHost { s.host with answer := a }

/-- The state a call starts in: context updated, answer and receive buffer empty, its operations next. -/
def beginCall (c : Call) (s : State) : State :=
  s.withHost { s.host with
    ctx := c.ctxAfter s.params s.host.ctx
    rx := []
    answer := .none
    todo := c.ops s.params s.host.ctx ++ s.host.todo }

/-- Start a pseudo-instruction: its operands, then its handles, then its operations (R272, R273). -/
def startCall (c : Call) (s : State) : Out :=
  match c.operandRefusal s.params s.host.ctx.variant with
  | some r => .refused r
  | none =>
    match (c.needs s.host.ctx.variant).find? fun b => !s.host.ctx.handles.mapped b with
    | some b => .fault (.unmappedAccess b)
    | none => .next (beginCall c s)

/-! ### What is done with a value read -/

/-- Some bit of `mask` is set in `v`. -/
def anySet (v mask : Word) : Bool := v &&& mask != 0

/-- The pull a Modern field reads back as (R286). -/
def pullAnswer (f : BitVec 2) : PullAnswer :=
  match modernPull f with
  | some .off => .off
  | some .up => .pullUp
  | some .down => .pullDown
  | none => .error

/-- The result of `read_counter` kept (R290). -/
def State.counted (s : State) (v : BitVec 64) : State := s.withHost { s.host with counter := v }

/-- Bytes appended to the receive buffer, bit order corrected (R331). -/
def State.received (s : State) (bs : List Byte) : State :=
  s.withHost { s.host with rx := s.host.rx ++ bs.map (orderByte s.host.ctx.bitOrder) }

/-- Some bit of `SPI0.CS` named by `mask`, numbered as R111 numbers them, is set in the value read. -/
def State.csSet (s : State) (v mask : Word) : Bool := anySet v (s.params.layout.cs.regWord mask)

/-- The byte of a value read from `SPI0.FIFO` (R112). -/
def State.fifoByte (s : State) (v : Word) : Byte := (s.params.layout.fifo.tableWord v).setWidth 8

/-- Some bit of `SPI1.STAT` named by `mask`, numbered as R114 numbers them, is set in the value read. -/
def State.statSet (s : State) (v mask : Word) : Bool := anySet v (s.params.layout.stat.regWord mask)

/-- Continue a sequence with the value a read returned. -/
def resume (k : ReadCont) (v : Word) (s : State) : State :=
  match k with
  | .discard => s
  | .setBits nb r value mask => s.push [.wr nb r (maskedMerge v value mask)]
  | .level mask => s.answer (.level (anySet v mask))
  | .flag mask => s.answer (.flag (anySet v mask))
  | .word => s.answer (.word v)
  | .pull shift => s.answer (.pull (pullAnswer (((s.params.layout.puppdn.tableWord v) >>> shift).setWidth 2)))
  | .poll nb r mask want => if anySet v mask = want then s else s.push (pollOps nb r mask want)
  | .counterHi1 => s.push [.rd false .clo (.counterLo v)]
  | .counterLo hi1 => s.push [.rd false .chi (.counterHi2 hi1 v)]
  | .counterHi2 hi1 lo => if v = hi1 then s.counted (hi1 ++ lo) else s.push [.rd false .clo (.counterLo2 v)]
  | .counterLo2 hi2 => s.counted (hi2 ++ v)
  | .fifoByte => s.received [s.fifoByte v]
  | .saveByte => s.received [v.setWidth 8]
  | .spi0Fill tx rx =>
    match s.csSet v csTXD, tx with
    | true, b :: rest => s.push [.spi0Push b rest rx]
    | _, _ => s.push [.spi0Drain tx rx]
  | .spi0Drain tx rx => if s.csSet v csRXD then s.push [.rd true .fifo (.spi0Pop tx rx)] else s.push [.spi0Loop tx rx]
  | .spi0Pop tx rx => (s.received [s.fifoByte v]).push [.spi0Drain tx (rx - 1)]
  | .spi0Flush => if s.csSet v csRXD then s.push [.rd true .fifo .discard, .rd false .cs .spi0Flush] else s
  | .spi0Done => if s.csSet v csDONE then s else s.push [.rd false .cs .spi0Flush, .rd true .cs .spi0Done]
  | .auxFill tx rx =>
    if s.statSet v statTXFULL then s.push [.auxDrain tx rx] else s.push [.auxPush (tx.take auxGroupMax) (tx.drop auxGroupMax) rx]
  | .auxDrain tx rx =>
    if s.statSet v statRXEMPTY then s.push [.auxIdle tx rx] else s.push [.rd false .io (.auxUnpack tx rx false)]
  | .auxIdle tx rx =>
    if s.statSet v statBUSY then s.push [.auxLoop tx rx] else s.push [.rd false .io (.auxUnpack tx rx true)]
  | .auxUnpack tx rx idle =>
    (s.received (unpackGroup (min rx auxGroupMax) v)).push
      [if idle then .auxIdle tx (rx - min rx auxGroupMax) else .auxDrain tx (rx - min rx auxGroupMax)]

/-- Continue a sequence after its read transaction. -/
def resumeRead (k : ReadCont) (t : State) : State :=
  match t.result with
  | some v => resume k v t
  | none => t

end Sys2Proof.Machine
end

