-- ==== Sys2Proof/Machine/HostStep.lean ====
section
/-! DEFINITION. The `HOST` agent (spec/00_scope.md R10): one operation of the host's program a step, at most one
bus transaction; and the step of whichever agent is next (R83). -/

namespace Sys2Proof.Machine

/-- The refusal a word that does not decode ends in (R342). -/
def decodeRefusal : DecodeError → Refusal
  | .malformed => .malformedTransaction
  | .misaligned => .narrowOrMisalignedAccess
  | .unknownRegister => .unknownRegister

/-- A raw transaction word: decoded and executed (R130, R131). -/
def runWord (w : TWord) (s : State) : Out :=
  match decode s.params.addrMap w with
  | .ok i => exec i s
  | .error e => .refused (decodeRefusal e)

/-- The transaction of a register and direction. -/
def Instr.ofReg (write nb : Bool) (v : Word) (r : Reg) : Instr := if write then Instr.wr nb v r else Instr.rd nb r

/-- `MemRead(addr, size)`, `MemWrite(addr, size, v)`: aligned 32-bit accesses only (R8, R74, R117). -/
def runAccess (write nb : Bool) (addr size : Nat) (v : Word) (s : State) : Out :=
  if size ≠ 4 ∨ addr % 4 ≠ 0 then .refused .narrowOrMisalignedAccess
  else
    match s.params.addrMap.regAt addr with
    | some r => exec (Instr.ofReg write nb v r) s
    | none => .refused .unknownRegister

/-- `read_counter()`: 0 with the timer unmapped, else its first read (R290). -/
def startCounter (s : State) : State :=
  if s.host.ctx.handles.st then s.push [.rd false .chi .counterHi1] else s.counted 0

/-- `delay` after its first `read_counter` (R292). -/
def startDelay (duration : BitVec 64) (s : State) : State :=
  if s.host.counter = 0 then s.push [.sleep duration.toNat]
  else if sleepThreshold < duration then
    s.push (.sleep (duration - sleepMargin).toNat :: delayUntilOps (s.host.counter + duration))
  else s.push (delayUntilOps (s.host.counter + duration))

/-- A push of `spi0_transfer_buf`, then its fill loop again (R309). -/
def spi0PushByte (b : Byte) (tx : List Byte) (rx : Nat) (s : State) : Out :=
  mapNext (fun t => t.push [.spi0Fill tx rx]) (exec (Instr.wr true (fifoByteWord s.params.layout s.host.ctx.bitOrder b) .fifo) s)

/-- A group of `aux_transfer_buf` queued, then its fill loop again (R322). -/
def auxPushGroup (g tx : List Byte) (rx : Nat) (s : State) : Out :=
  mapNext (fun t => t.push [.auxFill tx rx])
    (exec (Instr.wr false (groupWord s.host.ctx.bitOrder g) (groupReg tx.isEmpty)) s)

/-- One operation of the host's program, already taken from it. -/
def hostOp (op : HostOp) (s : State) : Out :=
  match op with
  | .word w => runWord w s
  | .access write nb addr size v => runAccess write nb addr size v s
  | .call c => startCall c s
  | .rd nb r k => mapNext (resumeRead k) (exec (Instr.rd nb r) s)
  | .wr nb r v => exec (Instr.wr nb v r) s
  | .answer a => .next (s.answer a)
  | .answerCount => .next (s.answer (.count s.host.counter))
  | .answerRx => .next (s.answer (.bytes s.host.rx))
  | .answerRxByte => .next (s.answer (.byte (s.host.rx.headD 0)))
  | .sleep d => .next (sleepStep d s)
  | .readCounter => .next (startCounter s)
  | .delayCheck target => .next (if s.host.counter < target then s.push (delayUntilOps target) else s)
  | .delayStart duration => .next (startDelay duration s)
  | .spi0Loop tx rx => .next (if tx = [] ∧ rx = 0 then s else s.push [.spi0Fill tx rx])
  | .spi0Fill tx rx =>
    if tx = [] then .next (s.push [.spi0Drain tx rx])
    else mapNext (resumeRead (.spi0Fill tx rx)) (exec (Instr.rd false .cs) s)
  | .spi0Push b tx rx => spi0PushByte b tx rx s
  | .spi0Drain tx rx =>
    if rx = 0 then .next (s.push [.spi0Loop tx rx])
    else mapNext (resumeRead (.spi0Drain tx rx)) (exec (Instr.rd false .cs) s)
  | .auxLoop tx rx => .next (if tx = [] ∧ rx = 0 then s else s.push [.auxFill tx rx])
  | .auxFill tx rx =>
    if tx = [] then .next (s.push [.auxDrain tx rx])
    else mapNext (resumeRead (.auxFill tx rx)) (exec (Instr.rd false .stat) s)
  | .auxPush g tx rx => auxPushGroup g tx rx s
  | .auxDrain tx rx =>
    if rx = 0 then .next (s.push [.auxIdle tx rx])
    else mapNext (resumeRead (.auxDrain tx rx)) (exec (Instr.rd false .stat) s)
  | .auxIdle tx rx =>
    if rx = 0 then .next (s.push [.auxLoop tx rx])
    else mapNext (resumeRead (.auxIdle tx rx)) (exec (Instr.rd false .stat) s)

/-- The `HOST` step: nothing while a `Sleep` lasts or with no program left, else the next operation. -/
def hostStep (s : State) : Out :=
  if s.host.sleepLeft ≠ 0 then .next s
  else
    match s.host.todo with
    | [] => .next s
    | op :: rest => hostOp op (s.withHost { s.host with todo := rest })

/-- The software is started again (R371): the host is as at the start but for the program of the new run and of those
after it; the block, the interconnect and the world outside keep what they have (assumption log entry 30). -/
def restartStep (s : State) : State :=
  s.withHost { HostSw.reset with todo := s.host.runs.headD [], runs := s.host.runs.tail }

/-- The step of an agent (R10). -/
def runAgent (a : Agent) (s : State) : Out :=
  match a with
  | .host => hostStep s
  | .timer => .next (timerStep s)
  | .sample => .next (sampleStep s)
  | .pudLatch p => .next (pudLatchStep p s)
  | .spi0Shift => spi0ShiftStep s
  | .spi1Shift => spi1ShiftStep s
  | .rxPush => .next (rxPushStep s)
  | .setExt p l => .next (setExtStep p l s)
  | .sleep d => .next (sleepStep d s)
  | .restart => .next (restartStep s)

/-- The agent that steps next: the head of the agenda, or any agent when it is empty (R83). -/
def State.nextAgent (s : State) : Agent :=
  match s.agenda with
  | a :: _ => a
  | [] => Config.freeAgent s.draws

/-- The state with the choice of the next agent taken. -/
def State.scheduled (s : State) : State :=
  match s.agenda with
  | _ :: rest => s.withAgenda rest
  | [] => s.drawn

/-- The state whose next step is the host's and whose next host operation is the given word. -/
def placeWord (w : TWord) (s : State) : State :=
  (s.withHost { s.host with todo := .word w :: s.host.todo, sleepLeft := 0 }).withAgenda (.host :: s.agenda)

end Sys2Proof.Machine
end

