-- ==== Sys2Proof/Machine/Step.lean ====
section
/-! DEFINITION. One step of the machine: the agent whose turn it is takes its step (spec/00_scope.md R10,
spec/20_memory.md R83). Nothing is fetched from memory: the host's program stands in `State.host.todo`
(assumption log entry 6). -/

namespace Sys2Proof.Machine

/-- One step. -/
def step (s : State) : Host.Outcome State Fault Refusal := runAgent s.nextAgent s.scheduled

/-- `s` with the transaction word placed so that the very next step runs it: the host is the next agent, is not
asleep, and the word is the next operation of its program. -/
def State.withFetchWord (s : State) (nbits w : Nat) : State := placeWord (tableWord nbits w) s

end Sys2Proof.Machine
end

