-- ==== Sys2Proof/Safety.lean ====
section
/-! DEFINITION. What counts as a sound state, when a transaction passes the checks of
spec/40_register_access.md R130 before its own rule runs, how the frame of an instruction is said, and what
fairness owes an agent (spec/42_timer.md R191, spec/41_gpio.md R175, spec/43_spi0.md R215,
spec/44_auxspi.md R253, R254). The claims about the machine are stated in these terms. -/

namespace Sys2Proof.Machine

/-! ### Sound states -/

/-- No FIFO holds more entries than its depth (R36, R42, R43, R50, R218). -/
def State.QueuesBounded (s : State) : Prop :=
  s.spi0.txq.length ≤ s.params.spi0Depth ∧ s.spi0.rxq.length ≤ s.params.spi0Depth
    ∧ s.spi1.txq.length ≤ s.params.auxDepth ∧ s.spi1.rxq.length ≤ s.params.auxDepth

/-- No reserved value is stored: not chip-select 3 (R202), not pull code 3 (R163), and no latch is armed with
it (R165). -/
def State.NoReservedValue (s : State) : Prop :=
  s.spi0.cs ≠ 3 ∧ s.gpio.pud ≠ 3 ∧ ∀ (p : Pin) (m : BitVec 2) (t : BitVec 64) (ok : Bool), s.gpio.arm.get p = .armed m t ok → m ≠ 3

/-- While `CLEARFIFO = 1` both SPI1 FIFOs, the shift register slot and the hold state are empty (R235). -/
def State.HeldEmpty (s : State) : Prop :=
  s.spi1.clearfifo = true →
    s.spi1.txq = [] ∧ s.spi1.rxq = [] ∧ s.spi1.srValid = false ∧ s.spi1.csheld = false

/-- A pull latch has an arming record only while its clock bit is 1 (R165, R181). -/
def State.ArmedUnderClock (s : State) : Prop :=
  ∀ p : Pin, s.gpio.arm.get p ≠ .none → s.gpio.pudclk.getLsbD p = true

/-- `SPEED` fits its width, and none of its positions counts as unnamed (R41). -/
def State.SpeedFits (s : State) : Prop :=
  s.spi1.speed < 2 ^ s.params.speedWidth ∧ ∀ k : Nat, k < s.params.speedWidth → s.spi1.cntl0Other.getLsbD (6 + k) = false

/-- The invariant of the machine. -/
structure State.Inv (s : State) : Prop where
  queuesBounded : s.QueuesBounded
  noReservedValue : s.NoReservedValue
  heldEmpty : s.HeldEmpty
  armedUnderClock : s.ArmedUnderClock
  speedFits : s.SpeedFits

/-! ### When a transaction reaches its own rule -/

/-- Lines `decode`, `order` and `gate` of R130 pass for a transaction on register `r` of a state. -/
structure State.Admits (s : State) (r : Reg) : Prop where
  /-- the register exists in the variant at hand (R103, R168) -/
  exists_ : (Instr.rd false r).wf s.params.variant = true
  /-- no non-barriered run to another block is open (R80) -/
  order : s.lastNb = none ∨ s.lastNb = some r.block
  /-- an `SPI1` register is enabled (R231) -/
  gate : r.block = .spi1 → s.aux.enb = true

/-! ### Frames -/

/-- `t` is `s` after a transaction to block `b` that touched no field of the block, of the outside world or of
the host: only what was returned, `LAST_NB` and the count of draws may differ. -/
def Untouched (b : Block) (nb : Bool) (s t : State) : Prop :=
  t = { s with result := t.result, lastNb := lastNbAfter b nb, draws := t.draws }

/-- Only the GPIO block may differ, besides what `Untouched` allows. -/
def OnlyGpio (nb : Bool) (s t : State) : Prop :=
  t = { s with gpio := t.gpio, result := t.result, lastNb := lastNbAfter .gpio nb, draws := t.draws }

/-- Two GPIO blocks agree in everything but what a due pull latch and the asynchronous detectors may change:
the event status, the pulls and the latch records (R176, R181). -/
def Gpio.SameButLatches (g g' : Gpio) : Prop :=
  g' = { g with eds := g'.eds, pull := g'.pull, arm := g'.arm }

/-- The enable array of a detector (R26). -/
def Gpio.enables (g : Gpio) : EventKind → PinBits
  | .rising => g.ren
  | .falling => g.fen
  | .high => g.hen
  | .low => g.len
  | .asyncRising => g.aren
  | .asyncFalling => g.afen

/-- The asynchronous detectors did what R176 says for a pin in a step from `old` to `new`, with `before` the
event status it started from: a rising change sets the status of a pin with `AREN`, a falling change that of
a pin with `AFEN`, no change leaves it, and a change to or from a level that is a draw can only set it. -/
def AsyncDetected (old new : State) (before : PinBits) (p : Pin) : Prop :=
  match old.level p, new.level p with
  | .low, .high => new.gpio.eds.getLsbD p = (before.getLsbD p || new.gpio.aren.getLsbD p)
  | .high, .low => new.gpio.eds.getLsbD p = (before.getLsbD p || new.gpio.afen.getLsbD p)
  | .low, .low => new.gpio.eds.getLsbD p = before.getLsbD p
  | .high, .high => new.gpio.eds.getLsbD p = before.getLsbD p
  | _, _ => before.getLsbD p = true → new.gpio.eds.getLsbD p = true

/-! ### Receive order on SPI1 -/

/-- The received words not yet read, first received first: the FIFO, then the shift register (R244, R255). -/
def Spi1.unread (a : Spi1) : List Word := a.rxq ++ (if a.srValid then [a.sr] else [])

/-! ### Sequences -/

/-- The pin a sequence is called for (R273). -/
def Call.pinOperand : Call → Option Nat
  | .selectFunction pin _ | .write pin _ | .readLevel pin | .eventEnable _ pin | .eventDisable _ pin
  | .eventDetected pin | .clearEvent pin | .setPull pin _ | .getPull pin | .pudclk pin _ => some pin
  | .setBits _ _ _ _ | .init _ | .close | .writeMask _ _ | .getPadControl _ | .setPadControl _ _ | .pud _
  | .readCounter | .delayMicros _ _ | .delay _ | .spi0Begin | .spi0End | .spi0SetSpeedHz _ | .spi0SetDivider _
  | .spi0SetMode _ | .spi0ChipSelect _ | .spi0SetCsPolarity _ _ | .setBitOrder _ | .spi0Transfer _
  | .spi0TransferBuf _ | .spi0WriteBuf _ | .auxBegin | .auxReset | .auxCalcDivider _ | .auxSetDivider _
  | .auxWrite16 _ | .auxWriteBuf _ | .auxTransferBuf _ | .auxTransfer _ | .bitReverse _ | .order _ => none

/-- The word an operation queues for transmission on SPI1, and the register it goes to (R245, R247). -/
def HostOp.queuedWord : HostOp → Option (Reg × Word)
  | .wr _ r v => if r = .io ∨ r = .txhold then some (r, v) else none
  | _ => none

/-! ### Fairness -/

/-- The agent may do more than stutter in this state. -/
def State.enabled (s : State) : Agent → Bool
  | .host => s.host.sleepLeft == 0 && !s.host.todo.isEmpty
  | .timer | .sample | .setExt _ _ | .sleep _ | .restart => true
  | .pudLatch p => s.latchDue p
  | .spi0Shift => s.spi0ShiftEnabled
  | .spi1Shift => s.spi1ShiftEnabled
  | .rxPush => s.rxPushEnabled

/-- Weak fairness obliges the agent to step if this stays so: `SPI1.SHIFT` always, or with
`AUX_HOLD_EAGER = false` only while an entry with `hold = 0` is queued (R253); `SPI1.RXPUSH` only while words
are queued (R254); `ENV` never (R60), a restart never (R371). That `HOST` is weakly fair, so that the other agents do
not step for ever while it could, is a DESIGN CHOICE: D33 and R386 list the other agents only, and R195 (c) bounds no
number of `TIMER` steps between two transactions (assumption log entry 31). A claim that a wait ends takes it as a premise on the agenda. -/
def State.owed (s : State) (a : Agent) : Bool :=
  s.enabled a &&
    match a with
    | .timer | .sample | .spi0Shift | .host => true
    | .spi1Shift => s.params.auxHoldEager || s.spi1.txq.any fun e => !e.hold
    | .rxPush => !s.spi1.txq.isEmpty
    | .pudLatch _ | .setExt _ _ | .sleep _ | .restart => false

end Sys2Proof.Machine
end

