-- ==== Sys2Proof/Certificates/Slice0/Obligations.lean ====
section
/-! DEFINITION. The statements about this model, one per claim of the spec. A transaction is written
`Instr.rd nb r` or `Instr.wr nb v r`: the constructor of `Instr` for register `r`, so a statement for all
members `n` of a register group is one about each of their constructors. `s.Admits r` is the condition on the
state under which a transaction reaches the rule of `r` (Safety.lean); together with the rule's own conditions
it makes up the hypotheses. Where a read returns reserved or unnamed positions, they are those of the free
word `s.freeWord` (assumption log entry 3), about which nothing is known. Where a register's bit positions are a
configuration value (R5), `tableWord` renumbers its word as the tables of spec/30_encoding.md do, and the bits named are
those of the renumbered word. -/

open Sys2Proof Sys2Proof.Machine

/-! ### Encoding -/

/-- R101, R103: under every address map with distinct addresses (R76) the decoder undoes the encoder on every
instruction, with every operand at every value. -/
def Obligations.DecodeOfEncode : Prop :=
  ∀ m : AddrMap, m.wf = true → ∀ i : Instr, decode m (encode m i) = .ok i

/-- R101, R122: no two words are the same instruction, so no bit of a word is ignored; under every address map. -/
def Obligations.EncodeOfDecode : Prop :=
  ∀ (m : AddrMap) (w : TWord) (i : Instr), decode m w = .ok i → encode m i = w

/-- R101, R117, R347: which words are refused, by which name, in which order; every other word is the
transaction its fields say. -/
def Obligations.DecodeRefusals : Prop :=
  ∀ (m : AddrMap) (w : TWord), m.wf = true →
    let malformed := w.extractLsb' 56 6 ≠ 0 ∨ (w.getLsbD 63 = false ∧ w.extractLsb' 0 32 ≠ 0)
    (decode m w = .error .malformed ↔ malformed)
    ∧ (decode m w = .error .misaligned ↔ ¬ malformed ∧ w.extractLsb' 32 2 ≠ 0)
    ∧ (decode m w = .error .unknownRegister ↔
        ¬ malformed ∧ w.extractLsb' 32 2 = 0 ∧ ∀ r : Reg, m.addr r ≠ (w.extractLsb' 32 24).toNat)
    ∧ (∀ r : Reg, ¬ malformed → m.addr r = (w.extractLsb' 32 24).toNat →
        decode m w = .ok (if w.getLsbD 63 then Instr.wr (w.getLsbD 62) (w.extractLsb' 0 32) r
                        else Instr.rd (w.getLsbD 62) r))

/-- R101 on words of spec/95_test_vectors.md section 2.1 and its programs. -/
def Obligations.DecodesPublishedWords : Prop :=
  decode .table 0x0020000800000000 = .ok (.rdGpfsel2 false)
    ∧ decode .table 0x8020001C01000000 = .ok (.wrGpset0 false 0x01000000)
    ∧ decode .table 0xC0204004000000A5 = .ok (.wrSpi0Fifo true 0xA5)
    ∧ decode .table 0x4020400000000000 = .ok (.rdSpi0Cs true)
    ∧ decode .table 0x0000300400000000 = .ok (.rdStClo false)
    ∧ decode .table 0x8010002C5A00001B = .ok (.wrPads0 false 0x5A00001B)
    ∧ decode .table 0x8020009400000001 = .ok (.wrGppud false 1)
    ∧ decode .table 0x002000E400000000 = .ok (.rdGppuppdn0 false)
    ∧ decode .table 0x8021500400000002 = .ok (.wrAuxEnb false 2)
    ∧ decode .table 0x802150B018010203 = .ok (.wrSpi1Txhold false 0x18010203)
    ∧ decode .table 0x0120000800000000 = .error .malformed
    ∧ decode .table 0x0020000800000001 = .error .malformed
    ∧ decode .table 0x0020000900000000 = .error .misaligned
    ∧ decode .table 0x0020001800000000 = .error .unknownRegister
    ∧ decode .table 0x0010100000000000 = .error .unknownRegister
    ∧ decode .table 0x0000300000000000 = .error .unknownRegister

/-! ### The step -/

/-- A step of the host whose next operation is a transaction word is `exec` of what the word decodes to, on the
state with the word taken from the program and the agent taken from the agenda; a word that does not decode is
refused by the name R342 gives. The agenda and the host's program are the model's own (log entries 4, 6). -/
def Obligations.StepRunsDecodedWord : Prop :=
  ∀ (s : State) (w : TWord) (rest : List HostOp) (agents : List Agent),
    s.agenda = .host :: agents → s.host.sleepLeft = 0 → s.host.todo = .word w :: rest →
      let taken : State := { s with agenda := agents, host := { s.host with todo := rest } }
      (∀ i : Instr, decode s.params.addrMap w = .ok i → step s = exec i taken)
      ∧ (decode s.params.addrMap w = .error .malformed → step s = .refused .malformedTransaction)
      ∧ (decode s.params.addrMap w = .error .misaligned → step s = .refused .narrowOrMisalignedAccess)
      ∧ (decode s.params.addrMap w = .error .unknownRegister → step s = .refused .unknownRegister)

/-- The same for a transaction of a sequence and for an access by byte offset (R8, R74); the agenda and the program are
the model's own (log entries 4, 6). -/
def Obligations.StepRunsAccess : Prop :=
  ∀ (s : State) (rest : List HostOp) (agents : List Agent) (write nb : Bool) (r : Reg) (v : Word) (addr size : Nat),
    s.agenda = .host :: agents → s.host.sleepLeft = 0 →
      let taken : State := { s with agenda := agents, host := { s.host with todo := rest } }
      (s.host.todo = .wr nb r v :: rest → step s = exec (Instr.wr nb v r) taken)
      ∧ (s.host.todo = .access write nb (s.params.addrMap.addr r) 4 v :: rest → s.params.addrMap.wf = true →
          step s = exec (Instr.ofReg write nb v r) taken)
      ∧ (s.host.todo = .access write nb addr size v :: rest → (size ≠ 4 ∨ addr % 4 ≠ 0) →
          step s = .refused .narrowOrMisalignedAccess)
      ∧ (s.host.todo = .access write nb addr 4 v :: rest → addr % 4 = 0 → (∀ q : Reg, s.params.addrMap.addr q ≠ addr) →
          step s = .refused .unknownRegister)

/-! ### Rules of every transaction -/

/-- R80: a transaction to another block than that of an open non-barriered run faults; any other does not; and
afterwards a run is open exactly when the transaction was non-barriered. -/
def Obligations.OrderAcrossBlocks : Prop :=
  ∀ (i : Instr) (s : State), i.wf s.params.variant = true →
    (∀ pending : Block, s.lastNb = some pending → pending ≠ i.reg.block →
      exec i s = .fault (.crossBlockWithoutBarrier pending i.reg.block))
    ∧ (s.lastNb = none ∨ s.lastNb = some i.reg.block → ∀ f : Fault, exec i s ≠ .fault f)
    ∧ (∀ t : State, exec i s = .next t → t.lastNb = if i.nb then some i.reg.block else none)

/-- R231, and R233: the stored state is kept. That an engine that is not enabled leaves the state as it is when its turn
comes is the model's choice (log entry 4). -/
def Obligations.Spi1Gate : Prop :=
  ∀ s : State, s.aux.enb = false →
    (∀ i : Instr, i.reg.block = .spi1 → s.lastNb = none ∨ s.lastNb = some .spi1 → exec i s = .refused .spi1Disabled)
    ∧ s.spi1ShiftEnabled = false ∧ s.rxPushEnabled = false
    ∧ spi1ShiftStep s = .next s ∧ rxPushStep s = s

/-- R168: a pull register of the other generation is refused, whatever else holds. -/
def Obligations.OtherVariantRefused : Prop :=
  ∀ (s : State) (nb : Bool) (v : Word) (n : Fin 2) (k : Fin 4),
    (s.params.variant = .modern →
      exec (Instr.rd nb .gppud) s = .refused .unknownRegister ∧ exec (Instr.wr nb v .gppud) s = .refused .unknownRegister
      ∧ exec (Instr.rd nb (.gppudclk n)) s = .refused .unknownRegister
      ∧ exec (Instr.wr nb v (.gppudclk n)) s = .refused .unknownRegister)
    ∧ (s.params.variant = .legacy →
      exec (Instr.rd nb (.gppuppdn k)) s = .refused .unknownRegister
      ∧ exec (Instr.wr nb v (.gppuppdn k)) s = .refused .unknownRegister)

/-- R132: the two forms differ in `LAST_NB` only: same stop, same value, same effect. -/
def Obligations.BarrierFormChangesNothing : Prop :=
  ∀ (write : Bool) (v : Word) (r : Reg) (s : State),
    mapNext (fun t => t.withLastNb none) (exec (Instr.ofReg write true v r) s)
      = mapNext (fun t => t.withLastNb none) (exec (Instr.ofReg write false v r) s)

/-- R130, R131: a read that completes returns a value, a write none. -/
def Obligations.ReadsReturnWritesDoNot : Prop :=
  ∀ (i : Instr) (s t : State), exec i s = .next t →
    (i.isWrite = true → t.result = none) ∧ (i.isWrite = false → ∃ v : Word, t.result = some v)

/-- What a transaction to one block cannot change: every other block, the counter (R33), the outside world, the
event history (R62), the host and the parameters. -/
def Obligations.BlockIsolation : Prop :=
  ∀ (i : Instr) (s t : State), exec i s = .next t →
    t.params = s.params ∧ t.cnt = s.cnt ∧ t.env = s.env ∧ t.hist = s.hist ∧ t.host = s.host ∧ t.agenda = s.agenda
    ∧ (i.reg.block ≠ .gpio → t.gpio = s.gpio) ∧ (i.reg.block ≠ .pads → t.pads = s.pads)
    ∧ (i.reg.block ≠ .spi0 → t.spi0 = s.spi0) ∧ (i.reg.block ≠ .aux → t.aux = s.aux)
    ∧ (i.reg.block ≠ .spi1 → t.spi1 = s.spi1)

/-! ### GPIO -/

/-- R140, with R104 and R105. -/
def Obligations.FunctionSelectRead : Prop :=
  ∀ (n : Fin 6) (nb : Bool) (s : State), s.Admits (.gpfsel n) →
    ∃ (t : State) (v : Word), exec (Instr.rd nb (.gpfsel n)) s = .next t ∧ t.result = some v ∧ Untouched .gpio nb s t
      ∧ (∀ p : Pin, p.val / 10 = n.val → v.extractLsb' ((p.val % 10) * 3) 3 = s.params.fselCodes.code (s.gpio.fsel.get p))
      ∧ (∀ j : Nat, j < 32 → (30 ≤ j ∨ numPins ≤ 10 * n.val + j / 3) → v.getLsbD j = s.freeWord.getLsbD j)

/-- R141, with R104, R105 and the event status of R176. That the write performs due latches, `pull` and `arm` being those
of `settle()`, is DEDUCED from R181 (log entry 9). The function codes are a parameter; they are to be distinct (R105). -/
def Obligations.FunctionSelectWrite : Prop :=
  ∀ (n : Fin 6) (nb : Bool) (v : Word) (s : State), s.Admits (.gpfsel n) → s.params.fselCodes.wf = true →
    ∃ t : State, exec (Instr.wr nb v (.gpfsel n)) s = .next t ∧ t.result = none ∧ OnlyGpio nb s t
      ∧ Gpio.SameButLatches { s.gpio with fsel := t.gpio.fsel } t.gpio
      ∧ t.gpio.pull = (settle s).gpio.pull ∧ t.gpio.arm = (settle s).gpio.arm
      ∧ (∀ p : Pin, p.val / 10 = n.val → s.params.fselCodes.code (t.gpio.fsel.get p) = v.extractLsb' ((p.val % 10) * 3) 3)
      ∧ (∀ p : Pin, p.val / 10 ≠ n.val → t.gpio.fsel.get p = s.gpio.fsel.get p)

/-- R142 and R144, with R106: bits written 1 set or clear latches, bits written 0 do nothing; nothing else
changes but the event status (R176). -/
def Obligations.OutputSetAndClear : Prop :=
  ∀ (n : Fin 2) (nb : Bool) (v : Word) (s : State), s.Admits (.gpset n) →
    (∃ t : State, exec (Instr.wr nb v (.gpset n)) s = .next t ∧ t.result = none ∧ OnlyGpio nb s t
      ∧ t.gpio = { s.gpio with out := t.gpio.out, eds := t.gpio.eds }
      ∧ ∀ p : Pin, t.gpio.out.getLsbD p = if p.val / 32 = n.val ∧ v.getLsbD (p.val % 32) = true then true else s.gpio.out.getLsbD p)
    ∧ (∃ t : State, exec (Instr.wr nb v (.gpclr n)) s = .next t ∧ t.result = none ∧ OnlyGpio nb s t
      ∧ t.gpio = { s.gpio with out := t.gpio.out, eds := t.gpio.eds }
      ∧ ∀ p : Pin, t.gpio.out.getLsbD p = if p.val / 32 = n.val ∧ v.getLsbD (p.val % 32) = true then false else s.gpio.out.getLsbD p)

/-- R143 and R145: a read of a Set or Clear register returns a free word and changes nothing. -/
def Obligations.SetAndClearReadFree : Prop :=
  ∀ (n : Fin 2) (nb : Bool) (s : State), s.Admits (.gpset n) →
    (∃ t : State, exec (Instr.rd nb (.gpset n)) s = .next t ∧ t.result = some s.freeWord ∧ Untouched .gpio nb s t)
    ∧ (∃ t : State, exec (Instr.rd nb (.gpclr n)) s = .next t ∧ t.result = some s.freeWord ∧ Untouched .gpio nb s t)

/-- R146 with R25, and R147: the level read for each pin of the register, due latches having been performed; a write
of the register is ignored. -/
def Obligations.LevelRegister : Prop :=
  ∀ (n : Fin 2) (nb : Bool) (w : Word) (s : State), s.Admits (.gplev n) →
    exec (Instr.wr nb w (.gplev n)) s = .next { s with result := none, lastNb := lastNbAfter .gpio nb }
    ∧ ∃ (t : State) (v : Word), exec (Instr.rd nb (.gplev n)) s = .next t ∧ t.result = some v
      ∧ OnlyGpio nb s t ∧ t.gpio = (settle s).gpio
      ∧ (∀ j : Nat, j < 32 → numPins ≤ 32 * n.val + j → v.getLsbD j = (settle s).freeWord.getLsbD j)
      ∧ ∀ p : Pin, p.val / 32 = n.val →
          (s.gpio.fsel.get p = .output → v.getLsbD (p.val % 32) = s.gpio.out.getLsbD p)
          ∧ (s.gpio.fsel.get p = .input → s.env.ext.get p = .high → v.getLsbD (p.val % 32) = true)
          ∧ (s.gpio.fsel.get p = .input → s.env.ext.get p = .low → v.getLsbD (p.val % 32) = false)
          ∧ (s.gpio.fsel.get p = .input → s.env.ext.get p = .z → (settle s).pullState p = some .up →
              v.getLsbD (p.val % 32) = true)
          ∧ (s.gpio.fsel.get p = .input → s.env.ext.get p = .z → (settle s).pullState p = some .down →
              v.getLsbD (p.val % 32) = false)

/-- R148 and R149. -/
def Obligations.EventStatus : Prop :=
  ∀ (n : Fin 2) (nb : Bool) (v : Word) (s : State), s.Admits (.gpeds n) →
    (∃ (t : State) (r : Word), exec (Instr.rd nb (.gpeds n)) s = .next t ∧ t.result = some r ∧ Untouched .gpio nb s t
      ∧ (∀ p : Pin, p.val / 32 = n.val → r.getLsbD (p.val % 32) = s.gpio.eds.getLsbD p)
      ∧ (∀ j : Nat, j < 32 → numPins ≤ 32 * n.val + j → r.getLsbD j = s.freeWord.getLsbD j))
    ∧ (∃ t : State, exec (Instr.wr nb v (.gpeds n)) s = .next t ∧ t.result = none ∧ OnlyGpio nb s t ∧ t.draws = s.draws
      ∧ t.gpio = { s.gpio with eds := t.gpio.eds }
      ∧ ∀ p : Pin, t.gpio.eds.getLsbD p = if p.val / 32 = n.val ∧ v.getLsbD (p.val % 32) = true then false else s.gpio.eds.getLsbD p)

/-- R150 to R161: each of the six detect enables reads as stored and is replaced whole by a write; no other
array, and no event status, changes. -/
def Obligations.DetectEnables : Prop :=
  ∀ (e : EventKind) (n : Fin 2) (nb : Bool) (v : Word) (s : State), s.Admits (e.pair n) →
    (∃ (t : State) (r : Word), exec (Instr.rd nb (e.pair n)) s = .next t ∧ t.result = some r ∧ Untouched .gpio nb s t
      ∧ (∀ p : Pin, p.val / 32 = n.val → r.getLsbD (p.val % 32) = (s.gpio.enables e).getLsbD p)
      ∧ (∀ j : Nat, j < 32 → numPins ≤ 32 * n.val + j → r.getLsbD j = s.freeWord.getLsbD j))
    ∧ (∃ t : State, exec (Instr.wr nb v (e.pair n)) s = .next t ∧ t.result = none ∧ OnlyGpio nb s t ∧ t.draws = s.draws
      ∧ (∀ p : Pin, (t.gpio.enables e).getLsbD p =
          if p.val / 32 = n.val then v.getLsbD (p.val % 32) else (s.gpio.enables e).getLsbD p)
      ∧ (∀ e' : EventKind, e' ≠ e → t.gpio.enables e' = s.gpio.enables e')
      ∧ t.gpio = { s.gpio with ren := t.gpio.ren, fen := t.gpio.fen, hen := t.gpio.hen, len := t.gpio.len,
                               aren := t.gpio.aren, afen := t.gpio.afen })

/-! ### Pull control -/

/-- R162, for every placing of the bits of R107, and R164. -/
def Obligations.LegacyPullReads : Prop :=
  ∀ (n : Fin 2) (nb : Bool) (s : State), s.Admits .gppud →
    (s.params.layout.gppud.wf = true →
      ∃ (t : State) (v : Word), exec (Instr.rd nb .gppud) s = .next t ∧ t.result = some v ∧ OnlyGpio nb s t
        ∧ t.gpio = (settle s).gpio ∧ (s.params.layout.gppud.tableWord v).extractLsb' 0 2 = s.gpio.pud
        ∧ (s.params.layout.gppud.tableWord v).extractLsb' 2 30 = (settle s).freeWord.extractLsb' 2 30)
    ∧ (∃ (t : State) (v : Word), exec (Instr.rd nb (.gppudclk n)) s = .next t ∧ t.result = some v ∧ OnlyGpio nb s t
      ∧ t.gpio = (settle s).gpio
      ∧ (∀ p : Pin, p.val / 32 = n.val → v.getLsbD (p.val % 32) = s.gpio.pudclk.getLsbD p)
      ∧ (∀ j : Nat, j < 32 → numPins ≤ 32 * n.val + j → v.getLsbD j = (settle s).freeWord.getLsbD j))

/-- R163, with `u` the state after `settle()`: code 3 is refused; any other code is stored with the instant, and an
armed latch whose code it is not loses its `ok`; for every placing of the bits of R107. `pudSeen` is the model's own (log
entry 11). -/
def Obligations.LegacyControlWrite : Prop :=
  ∀ (nb : Bool) (x : Word) (s : State), s.Admits .gppud →
    let v := s.params.layout.gppud.tableWord x
    let u := settle s
    (v.extractLsb' 0 2 = 3 → exec (Instr.wr nb x .gppud) s = .refused .reservedPullCode)
    ∧ (v.extractLsb' 0 2 ≠ 3 → ∃ t : State, exec (Instr.wr nb x .gppud) s = .next t ∧ t.result = none ∧ OnlyGpio nb s t
      ∧ t.gpio = { u.gpio with pud := v.extractLsb' 0 2, pudT := s.cnt, pudSeen := true, arm := t.gpio.arm }
      ∧ ∀ p : Pin,
          (u.gpio.arm.get p = .none → t.gpio.arm.get p = .none)
          ∧ (u.gpio.arm.get p = .latched → t.gpio.arm.get p = .latched)
          ∧ (∀ (m : BitVec 2) (i : BitVec 64) (ok : Bool), u.gpio.arm.get p = .armed m i ok →
              t.gpio.arm.get p = .armed m i (if v.extractLsb' 0 2 = m then ok else false)))

/-- R165, with `u` the state after `settle()`: a rising clock bit arms its pin with the present control, a falling
one disarms it and leaves the pull alone unless a latch was armed, every other pin keeps its record and its pull.
That `ok` is free until the control is written is log entry 11. -/
def Obligations.LegacyClockWrite : Prop :=
  ∀ (n : Fin 2) (nb : Bool) (v : Word) (s : State), s.Admits (.gppudclk n) →
    let u := settle s
    ∃ t : State, exec (Instr.wr nb v (.gppudclk n)) s = .next t ∧ t.result = none ∧ OnlyGpio nb s t
      ∧ t.gpio = { u.gpio with pudclk := t.gpio.pudclk, arm := t.gpio.arm, pull := t.gpio.pull, eds := t.gpio.eds }
      ∧ ∀ p : Pin,
          (t.gpio.pudclk.getLsbD p = if p.val / 32 = n.val then v.getLsbD (p.val % 32) else s.gpio.pudclk.getLsbD p)
          ∧ (s.gpio.pudclk.getLsbD p = t.gpio.pudclk.getLsbD p →
              t.gpio.arm.get p = u.gpio.arm.get p ∧ t.gpio.pull.get p = u.gpio.pull.get p)
          ∧ (s.gpio.pudclk.getLsbD p = false → t.gpio.pudclk.getLsbD p = true →
              t.gpio.pull.get p = u.gpio.pull.get p
              ∧ ∃ ok : Bool, t.gpio.arm.get p = .armed s.gpio.pud s.cnt ok
                ∧ (s.gpio.pudSeen = true → ok = decide (s.params.tPudTicks ≤ (s.cnt - s.gpio.pudT).toNat)))
          ∧ (s.gpio.pudclk.getLsbD p = true → t.gpio.pudclk.getLsbD p = false →
              t.gpio.arm.get p = .none
              ∧ ((∀ m i ok, u.gpio.arm.get p ≠ .armed m i ok) → t.gpio.pull.get p = u.gpio.pull.get p))

/-- R181: when a latch is due, what it does, that `settle()` performs every due one and leaves none due, and that
`GPIO.PUDLATCH` of a pin does the same to that pin alone and changes nothing else but its event status. -/
def Obligations.PullLatch : Prop :=
  ∀ (s : State) (p : Pin),
    (s.latchDue p = true ↔ s.params.variant = .legacy ∧ s.gpio.pudclk.getLsbD p = true
      ∧ ∃ m i ok, s.gpio.arm.get p = .armed m i ok ∧ s.params.tPudTicks ≤ (s.cnt - i).toNat)
    ∧ (s.latchDue p = true → (settle s).gpio.arm.get p = .latched
        ∧ ∀ m i mode, s.gpio.arm.get p = .armed m i true → s.params.pudCodes.decode m = some mode →
            (settle s).gpio.pull.get p = mode)
    ∧ (s.latchDue p = false → (settle s).gpio.arm.get p = s.gpio.arm.get p
        ∧ (settle s).gpio.pull.get p = s.gpio.pull.get p)
    ∧ (settle s).latchDue p = false
    ∧ Gpio.SameButLatches s.gpio (settle s).gpio
    ∧ settle s = { s with gpio := (settle s).gpio, draws := (settle s).draws }
    ∧ (pudLatchStep p s).gpio.arm.get p = (settle s).gpio.arm.get p
    ∧ (pudLatchStep p s).gpio.pull.get p = (settle s).gpio.pull.get p
    ∧ (∀ q : Pin, q ≠ p → (pudLatchStep p s).gpio.arm.get q = s.gpio.arm.get q
        ∧ (pudLatchStep p s).gpio.pull.get q = s.gpio.pull.get q
        ∧ (pudLatchStep p s).gpio.eds.getLsbD q = s.gpio.eds.getLsbD q)
    ∧ Gpio.SameButLatches s.gpio (pudLatchStep p s).gpio
    ∧ pudLatchStep p s = { s with gpio := (pudLatchStep p s).gpio, draws := (pudLatchStep p s).draws }

/-- R295: the Legacy protocol with `k₁` and `k₂` ticks of waiting, each at least `T_PUD_TICKS`, from a state in which
the pin's clock bit is 0 and no latch is armed (a latch that has fired may stand): the pin ends with the wanted pull,
the control at `Off`, the member's clock bits at 0, and every other pin with the pull it had. -/
def Obligations.LegacyPullProtocol : Prop :=
  ∀ (s : State) (pin : Pin) (mode : Pull) (k₁ k₂ : Nat),
    s.Admits .gppud → s.params.wf = true → s.gpio.pudclk.getLsbD pin = false →
    (∀ (q : Pin) (m : BitVec 2) (i : BitVec 64) (ok : Bool), s.gpio.arm.get q ≠ .armed m i ok) →
    s.params.tPudTicks ≤ k₁ → k₁ < 2 ^ 64 → s.params.tPudTicks ≤ k₂ → k₂ < 2 ^ 64 →
      let codes := s.params.pudCodes
      let control := fun m : Pull => s.params.layout.gppud.regWord ((codes.code m).setWidth 32)
      let clock := pairReg .gppudclk pin.val
      ∃ s₁ s₂ s₃ s₄ : State,
        exec (Instr.wr false (control mode) .gppud) s = .next s₁
        ∧ exec (Instr.wr false (pinMask pin.val) clock) (s₁.withCnt (s₁.cnt + BitVec.ofNat 64 k₁)) = .next s₂
        ∧ exec (Instr.wr false (control .off) .gppud) (s₂.withCnt (s₂.cnt + BitVec.ofNat 64 k₂)) = .next s₃
        ∧ exec (Instr.wr false 0 clock) s₃ = .next s₄
        ∧ s₄.gpio.pull.get pin = mode ∧ s₄.gpio.pud = codes.code .off
        ∧ (∀ q : Pin, q.val / 32 = pin.val / 32 → s₄.gpio.pudclk.getLsbD q = false)
        ∧ (∀ q : Pin, q ≠ pin → s₄.gpio.pull.get q = s.gpio.pull.get q)

/-- R166 and R167, for every placing of the bits of R108; the pulls are those of R30 from the end of the write on, and the
event status is R176's. -/
def Obligations.ModernPullFields : Prop :=
  ∀ (n : Fin 4) (nb : Bool) (v : Word) (s : State), s.Admits (.gppuppdn n) →
    let w := s.params.layout.puppdn.tableWord v
    (s.params.layout.puppdn.wf = true → ∃ (t : State) (x : Word), exec (Instr.rd nb (.gppuppdn n)) s = .next t
      ∧ t.result = some x ∧ Untouched .gpio nb s t
      ∧ let r := s.params.layout.puppdn.tableWord x
        (∀ p : Pin, p.val / 16 = n.val → r.extractLsb' ((p.val % 16) * 2) 2 = s.gpio.puppdn.get p)
        ∧ (∀ j : Nat, j < 32 → numPins ≤ 16 * n.val + j / 2 → r.getLsbD j = s.freeWord.getLsbD j))
    ∧ (∃ t : State, exec (Instr.wr nb v (.gppuppdn n)) s = .next t ∧ t.result = none ∧ OnlyGpio nb s t
      ∧ t.gpio = { s.gpio with puppdn := t.gpio.puppdn, eds := t.gpio.eds }
      ∧ ∀ p : Pin,
          (t.gpio.puppdn.get p =
            if p.val / 16 = n.val then w.extractLsb' ((p.val % 16) * 2) 2 else s.gpio.puppdn.get p)
          ∧ t.pullState p =
            match (t.gpio.puppdn.get p).toNat with
            | 0 => some .off
            | 1 => some .up
            | 2 => some .down
            | _ => none)

/-- R170 and R171, for every placing of the bits of R109. -/
def Obligations.PadControl : Prop :=
  ∀ (g : Fin 3) (nb : Bool) (v : Word) (s : State), s.Admits (.pads g) →
    let w := s.params.layout.pads.tableWord v
    let passwd := s.params.layout.pads.tableWord s.params.padPasswd
    (s.params.layout.pads.wf = true → ∃ (t : State) (r : Word), exec (Instr.rd nb (.pads g)) s = .next t ∧ t.result = some r ∧ Untouched .pads nb s t
      ∧ (s.params.layout.pads.tableWord r).extractLsb' 0 5 = s.pads.get g
      ∧ (s.params.layout.pads.tableWord r).extractLsb' 5 27 = s.freeWord.extractLsb' 5 27)
    ∧ (w.extractLsb' 24 8 = passwd.extractLsb' 24 8 →
        ∃ t : State, exec (Instr.wr nb v (.pads g)) s = .next t
          ∧ t = { s with pads := t.pads, result := none, lastNb := lastNbAfter .pads nb }
          ∧ ∀ h : Fin 3, t.pads.get h = if h = g then w.extractLsb' 0 5 else s.pads.get h)
    ∧ (w.extractLsb' 24 8 ≠ passwd.extractLsb' 24 8 →
        exec (Instr.wr nb v (.pads g)) s = .next { s with result := none, lastNb := lastNbAfter .pads nb })

/-! ### Event detection -/

/-- R175: one sample of every pin, from the state `u` with due latches performed. The new `PREV` is the level seen:
the pin's level where that is determined. That due latches come first is DEDUCED from R181 (log entry 9). -/
def Obligations.SampleStep : Prop :=
  ∀ s : State,
    let u := settle s
    let t := sampleStep s
    t = { s with gpio := t.gpio, draws := t.draws }
    ∧ t.gpio = { u.gpio with eds := t.gpio.eds, prev := t.gpio.prev }
    ∧ ∀ p : Pin,
        (u.level p = .high → t.gpio.prev.getLsbD p = true)
        ∧ (u.level p = .low → t.gpio.prev.getLsbD p = false)
        ∧ (t.gpio.eds.getLsbD p = true ↔
            u.gpio.eds.getLsbD p = true
            ∨ (s.gpio.ren.getLsbD p = true ∧ s.gpio.prev.getLsbD p = false ∧ t.gpio.prev.getLsbD p = true)
            ∨ (s.gpio.fen.getLsbD p = true ∧ s.gpio.prev.getLsbD p = true ∧ t.gpio.prev.getLsbD p = false)
            ∨ (s.gpio.hen.getLsbD p = true ∧ t.gpio.prev.getLsbD p = true)
            ∨ (s.gpio.len.getLsbD p = true ∧ t.gpio.prev.getLsbD p = false))

/-- R176, for every step that changes a level: `SetExt`, the writes of Set, Clear, function select, the Modern pull fields
and the Legacy clock, and the pull latch, both as `settle()` and as the agent step `GPIO.PUDLATCH`. Where levels are
evaluated after `settle()` is log entry 9, the draws log entry 10. -/
def Obligations.AsynchronousDetection : Prop :=
  (∀ (s : State) (q : Pin) (l : Ext) (p : Pin), AsyncDetected (settle s) (setExtStep q l s) (settle s).gpio.eds p)
  ∧ (∀ (s t : State) (nb : Bool) (v : Word) (n : Fin 2) (p : Pin),
      exec (Instr.wr nb v (.gpset n)) s = .next t ∨ exec (Instr.wr nb v (.gpclr n)) s = .next t →
        AsyncDetected s t s.gpio.eds p)
  ∧ (∀ (s t : State) (nb : Bool) (v : Word) (n : Fin 6) (p : Pin),
      exec (Instr.wr nb v (.gpfsel n)) s = .next t → AsyncDetected (settle s) t (settle s).gpio.eds p)
  ∧ (∀ (s t : State) (nb : Bool) (v : Word) (n : Fin 4) (p : Pin),
      exec (Instr.wr nb v (.gppuppdn n)) s = .next t → AsyncDetected s t s.gpio.eds p)
  ∧ (∀ (s t : State) (nb : Bool) (v : Word) (n : Fin 2) (p : Pin),
      exec (Instr.wr nb v (.gppudclk n)) s = .next t → AsyncDetected (settle s) t (settle s).gpio.eds p)
  ∧ (∀ (s : State) (p : Pin), AsyncDetected s (settle s) s.gpio.eds p)
  ∧ (∀ (s : State) (q p : Pin), AsyncDetected s (pudLatchStep q s) s.gpio.eds p)

/-- R60: `SetExt(q, l)` sets what drives pin `q` to `l` and keeps every other pin's driver and both slaves; besides, due
latches are performed (DEDUCED, log entry 9) and event status may be set (R176), and nothing else changes. -/
def Obligations.SetExtStep : Prop :=
  ∀ (s : State) (q : Pin) (l : Ext),
    let t := setExtStep q l s
    t = { s with env := t.env, gpio := t.gpio, draws := t.draws }
    ∧ t.env = { s.env with ext := t.env.ext }
    ∧ (∀ p : Pin, t.env.ext.get p = if p = q then l else s.env.ext.get p)
    ∧ t.gpio = { (settle s).gpio with eds := t.gpio.eds }
    ∧ (∀ p : Pin, (settle s).gpio.eds.getLsbD p = true → t.gpio.eds.getLsbD p = true)
    ∧ (∀ p : Pin, p ≠ q → t.gpio.eds.getLsbD p = (settle s).gpio.eds.getLsbD p)

/-! ### Timer -/

/-- R191; that a tick also counts a running `Sleep` down is the model's own (log entry 18). -/
def Obligations.TimerTick : Prop :=
  ∀ s : State,
    timerStep s = { s with cnt := s.cnt + 1, host := { s.host with sleepLeft := s.host.sleepLeft - 1 } }
    ∧ (timerStep s).cnt.toNat = (s.cnt.toNat + 1) % 2 ^ 64

/-- R192 and R193: each half is returned and nothing changes; in particular nothing is latched. -/
def Obligations.TimerReads : Prop :=
  ∀ (nb : Bool) (s : State), s.Admits .clo →
    exec (Instr.rd nb .clo) s = .next { s with result := some (s.cnt.extractLsb' 0 32), lastNb := lastNbAfter .st nb }
    ∧ exec (Instr.rd nb .chi) s = .next { s with result := some (s.cnt.extractLsb' 32 32), lastNb := lastNbAfter .st nb }

/-- R194 and R241: the writes to which the spec gives no meaning are refused, always. -/
def Obligations.RefusedWrites : Prop :=
  ∀ (nb : Bool) (v : Word) (s : State),
    (s.Admits .clo → exec (Instr.wr nb v .clo) s = .refused .timerWrite
      ∧ exec (Instr.wr nb v .chi) s = .refused .timerWrite)
    ∧ (s.Admits .stat → exec (Instr.wr nb v .stat) s = .refused .statusWrite)

/-- R290 and R293: with the timer mapped `read_counter` reads `CHI`, then `CLO`, then `CHI`, each read the host's next
operation once the one before it has completed; for reads at the instants `t₁ ≤ t₂ ≤ t₃ ≤ t₄` of the true count, fewer
than `2^32` ticks apart, it keeps the count at `t₂` when the two high halves agree, else it reads `CLO` again and keeps
the count at `t₄`. -/
def Obligations.ReadCounterMeaning : Prop :=
  (∀ (s : State) (v lo₁ : Word),
    Call.ops s.params s.host.ctx .readCounter = [.readCounter, .answerCount]
    ∧ (s.host.ctx.handles.st = true → hostOp .readCounter s = .next (s.push [.rd false .chi .counterHi1]))
    ∧ (s.host.ctx.handles.st = false → hostOp .readCounter s = .next (s.counted 0))
    ∧ hostOp .answerCount s = .next (s.answer (.count s.host.counter))
    ∧ resume .counterHi1 v s = s.push [.rd false .clo (.counterLo v)]
    ∧ resume (.counterLo v) lo₁ s = s.push [.rd false .chi (.counterHi2 v lo₁)])
  ∧ (∀ (s t : State) (nb : Bool) (r : Reg) (k : ReadCont) (v : Word), exec (Instr.rd nb r) s = .next t →
      t.result = some v → hostOp (.rd nb r k) s = .next (resume k v t))
  ∧ (∀ (s u : State) (t₁ t₂ t₃ t₄ : Nat), t₁ ≤ t₂ → t₂ ≤ t₃ → t₃ ≤ t₄ → t₄ - t₁ < 2 ^ 32 →
    let hi := fun t : Nat => (BitVec.ofNat 64 t).extractLsb' 32 32
    let lo := fun t : Nat => (BitVec.ofNat 64 t).extractLsb' 0 32
    (hi t₃ = hi t₁ → resume (.counterHi2 (hi t₁) (lo t₂)) (hi t₃) s = s.counted (BitVec.ofNat 64 t₂))
    ∧ (hi t₃ ≠ hi t₁ →
        resume (.counterHi2 (hi t₁) (lo t₂)) (hi t₃) s = s.push [.rd false .clo (.counterLo2 (hi t₃))]
        ∧ resume (.counterLo2 (hi t₃)) (lo t₄) u = u.counted (BitVec.ofNat 64 t₄)))

/-! ### SPI0 -/

/-- R201, with R37 and R111, for every placing of the bits of R111. -/
def Obligations.Spi0StatusRead : Prop :=
  ∀ (nb : Bool) (s : State), s.Admits .cs → s.params.layout.cs.wf = true →
    ∃ (t : State) (v : Word), exec (Instr.rd nb .cs) s = .next t ∧ t.result = some v ∧ Untouched .spi0 nb s t
      ∧ let r := s.params.layout.cs.tableWord v
        r.extractLsb' 0 2 = s.spi0.cs ∧ r.getLsbD 2 = s.spi0.cpha ∧ r.getLsbD 3 = s.spi0.cpol
      ∧ r.getLsbD 4 = false ∧ r.getLsbD 5 = false ∧ r.getLsbD 7 = s.spi0.ta
      ∧ (r.getLsbD 16 = true ↔ s.spi0.ta = true ∧ s.spi0.txq.length = 0)
      ∧ (r.getLsbD 17 = true ↔ 0 < s.spi0.rxq.length)
      ∧ (r.getLsbD 18 = true ↔ s.spi0.txq.length < s.params.spi0Depth)
      ∧ r.getLsbD 21 = s.spi0.cspol0 ∧ r.getLsbD 22 = s.spi0.cspol1 ∧ r.getLsbD 23 = s.spi0.cspol2
      ∧ r.extractLsb' 24 2 ++ r.extractLsb' 8 8 ++ r.extractLsb' 6 1 = s.spi0.csOther
      ∧ r.extractLsb' 19 2 = s.freeWord.extractLsb' 19 2 ∧ r.extractLsb' 26 6 = s.freeWord.extractLsb' 26 6

/-- R202 with R203, R204 and R205: the two refusals in order, else every field stored, the asked clears done, nothing
else changed. -/
def Obligations.Spi0ControlWrite : Prop :=
  ∀ (nb : Bool) (x : Word) (s : State), s.Admits .cs →
    let v := s.params.layout.cs.tableWord x
    let changes := v.extractLsb' 0 2 ≠ s.spi0.cs ∨ v.getLsbD 2 ≠ s.spi0.cpha ∨ v.getLsbD 3 ≠ s.spi0.cpol
      ∨ v.getLsbD 21 ≠ s.spi0.cspol0 ∨ v.getLsbD 22 ≠ s.spi0.cspol1 ∨ v.getLsbD 23 ≠ s.spi0.cspol2
    (v.extractLsb' 0 2 = 3 → exec (Instr.wr nb x .cs) s = .refused .reservedChipSelect)
    ∧ (v.extractLsb' 0 2 ≠ 3 → s.spi0.ta = true → v.getLsbD 7 = true → changes →
        exec (Instr.wr nb x .cs) s = .refused .configChangeDuringTransfer)
    ∧ (v.extractLsb' 0 2 ≠ 3 → (s.spi0.ta = false ∨ v.getLsbD 7 = false ∨ ¬ changes) →
        exec (Instr.wr nb x .cs) s = .next { s with
          result := none
          lastNb := lastNbAfter .spi0 nb
          spi0 := { s.spi0 with
            cs := v.extractLsb' 0 2
            cpha := v.getLsbD 2
            cpol := v.getLsbD 3
            ta := v.getLsbD 7
            cspol0 := v.getLsbD 21
            cspol1 := v.getLsbD 22
            cspol2 := v.getLsbD 23
            csOther := v.extractLsb' 24 2 ++ v.extractLsb' 8 8 ++ v.extractLsb' 6 1
            txq := if v.getLsbD 4 = true then [] else s.spi0.txq
            rxq := if v.getLsbD 5 = true then [] else s.spi0.rxq } })

/-- R206 and R207, for every placing of the bits of R112. -/
def Obligations.Spi0Fifo : Prop :=
  ∀ (nb : Bool) (v : Word) (s : State), s.Admits .fifo →
    (s.params.layout.fifo.wf = true → ∀ (b : Byte) (rest : List Byte), s.spi0.rxq = b :: rest →
      ∃ x : Word, s.params.layout.fifo.tableWord x = b.setWidth 32
        ∧ exec (Instr.rd nb .fifo) s = .next { s with
          spi0 := { s.spi0 with rxq := rest }, result := some x, lastNb := lastNbAfter .spi0 nb })
    ∧ (s.spi0.rxq = [] → ∃ t : State, exec (Instr.rd nb .fifo) s = .next t ∧ t.result = some s.freeWord ∧ Untouched .spi0 nb s t)
    ∧ (s.spi0.ta = false → exec (Instr.wr nb v .fifo) s = .refused .fifoWriteWhileIdle)
    ∧ (s.spi0.ta = true → s.spi0.txq.length = s.params.spi0Depth →
        exec (Instr.wr nb v .fifo) s = .refused .txFifoOverflow)
    ∧ (s.spi0.ta = true → s.spi0.txq.length ≠ s.params.spi0Depth →
        exec (Instr.wr nb v .fifo) s = .next { s with
          spi0 := { s.spi0 with txq := s.spi0.txq ++ [(s.params.layout.fifo.tableWord v).extractLsb' 0 8] }
          result := none
          lastNb := lastNbAfter .spi0 nb })

/-- R208 and R209, for every placing of the bits of R112. -/
def Obligations.Spi0ClockDivider : Prop :=
  ∀ (nb : Bool) (v : Word) (s : State), s.Admits .clk →
    (s.params.layout.clk.wf = true → ∃ x : Word, s.params.layout.clk.tableWord x = s.spi0.cdiv.setWidth 32
      ∧ exec (Instr.rd nb .clk) s = .next { s with result := some x, lastNb := lastNbAfter .spi0 nb })
    ∧ (s.spi0.ta = true → exec (Instr.wr nb v .clk) s = .refused .configChangeDuringTransfer)
    ∧ (s.spi0.ta = false → exec (Instr.wr nb v .clk) s = .next { s with
        spi0 := { s.spi0 with cdiv := (s.params.layout.clk.tableWord v).extractLsb' 0 16 }
        result := none
        lastNb := lastNbAfter .spi0 nb })

/-- R35 with R210: the effective divisor is even, from 2 to 65536, ignores the low bit, is 65536 for 0 and 1 and the
value itself for any other even one. -/
def Obligations.EffectiveDivider : Prop :=
  ∀ p : Spi0,
    p.cdivEff % 2 = 0 ∧ 2 ≤ p.cdivEff ∧ p.cdivEff ≤ 65536
    ∧ (p.cdiv.toNat < 2 → p.cdivEff = 65536)
    ∧ (2 ≤ p.cdiv.toNat → p.cdivEff = p.cdiv.toNat - p.cdiv.toNat % 2)

/-- R214: when the engine is enabled, what one byte does, and that it stands still otherwise. -/
def Obligations.Spi0ShiftStep : Prop :=
  ∀ s : State,
    let enabled := s.spi0.ta = true ∧ 0 < s.spi0.txq.length ∧ s.spi0.rxq.length < s.params.spi0Depth
    (¬ enabled → spi0ShiftStep s = .next s)
    ∧ (enabled → s.spi0.csOther ≠ 0 → spi0ShiftStep s = .refused .unmodelledControlBit)
    ∧ (enabled → s.spi0.csOther = 0 → ∀ (b : Byte) (rest : List Byte), s.spi0.txq = b :: rest →
        ∃ r : Byte,
          spi0ShiftStep s = .next { s with
            spi0 := { s.spi0 with txq := rest, rxq := s.spi0.rxq ++ [r] }
            hist := s.hist ++ [.spi0 s.spi0.cs s.spi0.mode s.spi0.cdivEff b r]
            draws := s.draws + 1 }
          ∧ (s.routed0 = true → s.env.slave0 = .echo → r = b)
          ∧ (∀ c, s.routed0 = true → s.env.slave0 = .const c → r = c.setWidth 8)
          ∧ (s.routed0 = true → s.env.slave0 = .oracle → r = Config.slave0 s.spi0.cs s.spi0.mode b s.hist)
          ∧ (s.routed0 = false → r = s.freeWord.setWidth 8))

/-! ### AUX and SPI1 -/

/-- R232 and R233, for every placing of the bits of R114. -/
def Obligations.AuxiliaryEnable : Prop :=
  ∀ (nb : Bool) (v : Word) (s : State), s.Admits .enb →
    let w := s.params.layout.enb.tableWord v
    (s.params.layout.enb.wf = true → ∃ (t : State) (x : Word), exec (Instr.rd nb .enb) s = .next t ∧ t.result = some x
      ∧ Untouched .aux nb s t
      ∧ let r := s.params.layout.enb.tableWord x
        r.getLsbD 1 = s.aux.enb ∧ r.extractLsb' 2 1 ++ r.extractLsb' 0 1 = s.aux.other
        ∧ r.extractLsb' 3 29 = s.freeWord.extractLsb' 3 29)
    ∧ exec (Instr.wr nb v .enb) s = .next { s with
        aux := { enb := w.getLsbD 1, other := w.extractLsb' 2 1 ++ w.extractLsb' 0 1 }
        result := none
        lastNb := lastNbAfter .aux nb }

/-- R234 and R235, for every placing of the bits of R113 and every width `n` of `SPEED`, which is the least that holds
`AUX_SPEED_MAX` (R41): the write stores every field and, with `CLEARFIFO`, empties the FIFOs, the shift register slot and
the hold state; the read of a state in which `SPEED` fits its width (every state of `State.Inv`) returns the fields at their
places (R113), and a read after a write returns the word written. That the positions of a narrower `SPEED` start at bit 20
and those above it are unnamed is the model's reading (log entry 33). -/
def Obligations.Spi1Control0 : Prop :=
  ∀ (nb nb' : Bool) (v : Word) (s : State), s.Admits .cntl0 →
    let w := s.params.layout.cntl0.tableWord v
    let n := s.params.speedWidth
    (n ≤ 12 ∧ (s.params.auxSpeedMax ≤ 4095 → ∀ k : Nat, s.params.auxSpeedMax < 2 ^ k ↔ n ≤ k))
    ∧ (s.params.layout.cntl0.wf = true → s.SpeedFits → ∃ x : Word,
      exec (Instr.rd nb .cntl0) s = .next { s with result := some x, lastNb := lastNbAfter .spi1 nb }
      ∧ let r := s.params.layout.cntl0.tableWord x
        r.extractLsb' 0 6 = s.spi1.shiftlen ∧ r.getLsbD 6 = s.spi1.msbfOut ∧ r.getLsbD 9 = s.spi1.clearfifo
        ∧ r.getLsbD 10 = s.spi1.cphaIn ∧ r.getLsbD 11 = s.spi1.enable ∧ r.getLsbD 14 = s.spi1.varWidth
        ∧ r.extractLsb' 17 3 = s.spi1.cspat ∧ (r.extractLsb' 20 12).toNat % 2 ^ n = s.spi1.speed
        ∧ (r.extractLsb' 20 12 >>> n <<< n) ++ r.extractLsb' 15 2 ++ r.extractLsb' 12 2 ++ r.extractLsb' 7 2
            = s.spi1.cntl0Other)
    ∧ (∃ t : State, exec (Instr.wr nb v .cntl0) s = .next t
      ∧ t = { s with spi1 := t.spi1, result := none, lastNb := lastNbAfter .spi1 nb }
      ∧ t.spi1 = { s.spi1 with
          shiftlen := w.extractLsb' 0 6, msbfOut := w.getLsbD 6, clearfifo := w.getLsbD 9, cphaIn := w.getLsbD 10
          enable := w.getLsbD 11, varWidth := w.getLsbD 14, cspat := w.extractLsb' 17 3
          speed := (w.extractLsb' 20 12).toNat % 2 ^ n
          cntl0Other :=
            (w.extractLsb' 20 12 >>> n <<< n) ++ w.extractLsb' 15 2 ++ w.extractLsb' 12 2 ++ w.extractLsb' 7 2
          txq := if w.getLsbD 9 = true then [] else s.spi1.txq
          rxq := if w.getLsbD 9 = true then [] else s.spi1.rxq
          srValid := if w.getLsbD 9 = true then false else s.spi1.srValid
          csheld := if w.getLsbD 9 = true then false else s.spi1.csheld }
      ∧ (s.params.layout.cntl0.wf = true →
          exec (Instr.rd nb' .cntl0) t = .next { t with result := some v, lastNb := lastNbAfter .spi1 nb' }))

/-- R236 and R237, for every placing of the bits of R114. -/
def Obligations.Spi1Control1 : Prop :=
  ∀ (nb : Bool) (v : Word) (s : State), s.Admits .cntl1 →
    let w := s.params.layout.cntl1.tableWord v
    (s.params.layout.cntl1.wf = true → ∃ x : Word,
      exec (Instr.rd nb .cntl1) s = .next { s with result := some x, lastNb := lastNbAfter .spi1 nb }
      ∧ let r := s.params.layout.cntl1.tableWord x
        r.getLsbD 1 = s.spi1.msbfIn ∧ r.extractLsb' 2 30 ++ r.extractLsb' 0 1 = s.spi1.cntl1Other)
    ∧ exec (Instr.wr nb v .cntl1) s = .next { s with
        spi1 := { s.spi1 with msbfIn := w.getLsbD 1, cntl1Other := w.extractLsb' 2 30 ++ w.extractLsb' 0 1 }
        result := none
        lastNb := lastNbAfter .spi1 nb }

/-- R240 with R44, for every placing of the bits of R114. -/
def Obligations.Spi1StatusRead : Prop :=
  ∀ (nb : Bool) (s : State), s.Admits .stat → s.params.layout.stat.wf = true →
    ∃ (t : State) (v : Word), exec (Instr.rd nb .stat) s = .next t ∧ t.result = some v ∧ Untouched .spi1 nb s t
      ∧ let r := s.params.layout.stat.tableWord v
        (r.getLsbD 6 = true ↔ 0 < s.spi1.txq.length)
        ∧ (r.getLsbD 7 = true ↔ s.spi1.rxq.length = 0)
        ∧ (r.getLsbD 10 = true ↔ s.spi1.txq.length = s.params.auxDepth)
        ∧ (∀ j : Nat, j < 32 → j ≠ 6 → j ≠ 7 → j ≠ 10 → r.getLsbD j = s.freeWord.getLsbD j)

/-- R244 and R246: both registers read the same receive path. -/
def Obligations.Spi1Receive : Prop :=
  ∀ (nb : Bool) (r : Reg) (s : State), r = .io ∨ r = .txhold → s.Admits r →
    (∀ (w : Word) (rest : List Word), s.spi1.rxq = w :: rest →
      exec (Instr.rd nb r) s = .next { s with
        spi1 := { s.spi1 with rxq := rest }, result := some w, lastNb := lastNbAfter .spi1 nb })
    ∧ (s.spi1.rxq = [] → s.spi1.srValid = true →
      exec (Instr.rd nb r) s = .next { s with
        spi1 := { s.spi1 with srValid := false }, result := some s.spi1.sr, lastNb := lastNbAfter .spi1 nb })
    ∧ (s.spi1.rxq = [] → s.spi1.srValid = false →
      ∃ t : State, exec (Instr.rd nb r) s = .next t ∧ t.result = some s.freeWord ∧ Untouched .spi1 nb s t)

/-- R245 and R247: the two registers differ in the hold flag of the entry only. -/
def Obligations.Spi1Queue : Prop :=
  ∀ (nb hold : Bool) (v : Word) (s : State), s.Admits .io →
    let r : Reg := if hold then .txhold else .io
    (s.spi1.clearfifo = true → exec (Instr.wr nb v r) s = .refused .spi1WriteWhileCleared)
    ∧ (s.spi1.clearfifo = false → s.spi1.txq.length = s.params.auxDepth →
        exec (Instr.wr nb v r) s = .refused .txFifoOverflow)
    ∧ (s.spi1.clearfifo = false → s.spi1.txq.length ≠ s.params.auxDepth →
        exec (Instr.wr nb v r) s = .next { s with
          spi1 := { s.spi1 with txq := s.spi1.txq ++ [{ word := v, hold := hold }] }
          result := none
          lastNb := lastNbAfter .spi1 nb })

/-- R252 with R248 and R249: when the engine is enabled, its refusals in order, and one whole transaction of `n` bits.
The bits sent are the `n` bits of the word from bit 23 down, or from bit 31 down. -/
def Obligations.Spi1ShiftStep : Prop :=
  ∀ s : State,
    let a := s.spi1
    let enabled := s.aux.enb = true ∧ a.enable = true ∧ a.clearfifo = false ∧ 0 < a.txq.length ∧ a.srValid = false
    (¬ enabled → spi1ShiftStep s = .next s)
    ∧ (enabled → (a.cntl0Other ≠ 0 ∨ a.cntl1Other ≠ 0) → spi1ShiftStep s = .refused .unmodelledControlBit)
    ∧ (enabled → a.cntl0Other = 0 → a.cntl1Other = 0 → (a.msbfOut = false ∨ a.msbfIn = false) →
        spi1ShiftStep s = .refused .unmodelledBitOrder)
    ∧ (enabled → a.cntl0Other = 0 → a.cntl1Other = 0 → a.msbfOut = true → a.msbfIn = true →
        ∀ (e : AuxEntry) (rest : List AuxEntry), a.txq = e :: rest →
          let n := if a.varWidth = true then (e.word.extractLsb' 24 8).toNat else a.shiftlen.toNat
          let legal := n = 8 ∨ n = 16 ∨ (a.varWidth = true ∧ n = 24)
          (¬ legal → spi1ShiftStep s = .refused .unmodelledShiftLength)
          ∧ (legal → ∃ bits r : BitVec 24,
              spi1ShiftStep s = .next { s with
                spi1 := { a with txq := rest, sr := r.setWidth 32, srValid := true, csheld := e.hold }
                hist := s.hist ++ [.spi1 a.cspat a.speed n bits r e.hold]
                draws := s.draws + 1 }
              ∧ (∀ j : Nat, bits.getLsbD j =
                  (decide (j < n) && e.word.getLsbD ((if a.varWidth = true then 24 else 32) - n + j)))
              ∧ (∀ j : Nat, n ≤ j → r.getLsbD j = false)
              ∧ (s.routed1 = true → s.env.slave1 = .echo → r = bits)
              ∧ (∀ c j, s.routed1 = true → s.env.slave1 = .const c → j < n → r.getLsbD j = c.getLsbD j)
              ∧ (∀ j, s.routed1 = true → s.env.slave1 = .oracle → j < n →
                  r.getLsbD j = (Config.slave1 a.cspat n bits (!a.csheld) s.hist).getLsbD j)
              ∧ (∀ j, s.routed1 = false → j < n → r.getLsbD j = s.freeWord.getLsbD j)))

/-- R254. -/
def Obligations.Spi1RxPushStep : Prop :=
  ∀ s : State,
    let enabled := s.aux.enb = true ∧ s.spi1.srValid = true ∧ s.spi1.rxq.length < s.params.auxDepth
    (enabled → rxPushStep s = { s with spi1 := { s.spi1 with rxq := s.spi1.rxq ++ [s.spi1.sr], srValid := false } })
    ∧ (¬ enabled → rxPushStep s = s)

/-- R255: of the words received and not yet read, `SPI1.RXPUSH` changes none, a shift appends one at the end, and a
read of the data register takes the first; at most one more than the FIFO's depth are outstanding. -/
def Obligations.ReceiveOrder : Prop :=
  (∀ s : State, (rxPushStep s).spi1.unread = s.spi1.unread)
  ∧ (∀ s t : State, spi1ShiftStep s = .next t → t.spi1.unread = s.spi1.unread ∨ ∃ w, t.spi1.unread = s.spi1.unread ++ [w])
  ∧ (∀ (s t : State) (nb : Bool) (w : Word) (rest : List Word), s.spi1.unread = w :: rest →
      exec (Instr.rd nb .io) s = .next t → t.result = some w ∧ t.spi1.unread = rest)
  ∧ (∀ s : State, s.Inv → s.spi1.unread.length ≤ s.params.auxDepth + 1)

/-! ### Sequences -/

/-- R134 and R135: what `set_bits` writes back has the bits of `value` inside the mask and the bits read outside it, and
the write is the host's next operation after the read. -/
def Obligations.SetBitsMerge : Prop :=
  (∀ (t value mask : Word) (j : Nat), j < 32 →
    (maskedMerge t value mask).getLsbD j = if mask.getLsbD j = true then value.getLsbD j else t.getLsbD j)
  ∧ (∀ (s t : State) (nb : Bool) (r : Reg) (value mask v : Word),
      exec (Instr.rd nb r) s = .next t → t.result = some v →
      hostOp (.rd nb r (.setBits nb r value mask)) s =
        .next { t with host := { t.host with todo := .wr nb r (maskedMerge v value mask) :: t.host.todo } })

/-- R296 with R274: `select_function(pin, mode)` unfolds into one read and one write of the pin's register; both complete,
and they leave the pin in the mode and every other pin's function as it was, whatever the register held. -/
def Obligations.SelectFunction : Prop :=
  ∀ (s : State) (pin : Pin) (n : Fin 6) (mode : FunSel), n.val = pin.val / 10 → s.Admits (.gpfsel n) →
    s.params.fselCodes.wf = true →
      let value : Word := (s.params.fselCodes.code mode).setWidth 32 <<< ((pin.val % 10) * 3)
      let mask : Word := 7#32 <<< ((pin.val % 10) * 3)
      let read : HostOp := .rd false (.gpfsel n) (.setBits false (.gpfsel n) value mask)
      Call.ops s.params s.host.ctx (.selectFunction pin.val mode) = [read]
      ∧ ∃ (t u : State) (v : Word),
        exec (Instr.rd false (.gpfsel n)) s = .next t ∧ t.result = some v
        ∧ hostOp read s = .next (t.push [.wr false (.gpfsel n) (maskedMerge v value mask)])
        ∧ hostOp (.wr false (.gpfsel n) (maskedMerge v value mask)) t = .next u
        ∧ u.gpio.fsel.get pin = mode
        ∧ (∀ q : Pin, q ≠ pin → u.gpio.fsel.get q = s.gpio.fsel.get q)
        ∧ u.gpio.out = s.gpio.out

/-- R332. -/
def Obligations.BitReversal : Prop :=
  (∀ b : Byte, bitReverse (bitReverse b) = b)
  ∧ (∀ b : Byte, bitReverse b = b ↔
      b ∈ ([0x00, 0x18, 0x24, 0x3C, 0x42, 0x5A, 0x66, 0x7E, 0x81, 0x99, 0xA5, 0xBD, 0xC3, 0xDB, 0xE7, 0xFF] : List Byte))
  ∧ (∀ (o : BitOrder) (b : Byte), orderByte o (orderByte o b) = b)

/-- R317: the divider never rises with the frequency asked for, is the same below and above the limits as at them, fits
its field, and the clock it gives is at most the clamped frequency unless the field's maximum cut it. -/
def Obligations.AuxiliaryDivider : Prop :=
  ∀ p : Params, p.wf = true →
    (∀ f g : Nat, f ≤ g → auxDivider p g ≤ auxDivider p f)
    ∧ (∀ f : Nat, f ≤ p.auxClockMin → auxDivider p f = auxDivider p p.auxClockMin)
    ∧ (∀ f : Nat, p.auxClockMax ≤ f → auxDivider p f = auxDivider p p.auxClockMax)
    ∧ (∀ f : Nat, auxDivider p f ≤ p.auxSpeedMax)
    ∧ (∀ f : Nat, auxDivider p f < p.auxSpeedMax →
        p.coreClockHz ≤ min (max f p.auxClockMin) p.auxClockMax * (2 * (auxDivider p f + 1)))

/-- R256: the groups of a buffer are its bytes in order, in groups of three and a last one of one to three; there are
`ceil(len / 3)` of them; the word of a group carries eight times its size in its top byte (R115); and of the words
`aux_write_buf` and `aux_transfer_buf` queue, all but the last go to the hold register and the last to the direct output
register. -/
def Obligations.GroupLaw : Prop :=
  ∀ tx : List Byte,
    (byteGroups tx).flatten = tx
    ∧ (byteGroups tx).length = (tx.length + 2) / 3
    ∧ (∀ g ∈ (byteGroups tx).dropLast, g.length = 3)
    ∧ (∀ g ∈ byteGroups tx, 1 ≤ g.length ∧ g.length ≤ 3
        ∧ (packGroup g).extractLsb' 24 8 = BitVec.ofNat 8 (8 * g.length))
    ∧ (∀ (p : Params) (c : DriverCtx),
        (Call.ops p c (.auxWriteBuf tx)).filterMap HostOp.queuedWord =
          (byteGroups tx).dropLast.map (fun g => (Reg.txhold, groupWord c.bitOrder g))
            ++ (byteGroups tx).getLast?.toList.map (fun g => (Reg.io, groupWord c.bitOrder g)))
    ∧ (∀ (g : List Byte) (gs : List (List Byte)) (rx : Nat) (v : Word) (s : State),
        byteGroups tx = g :: gs → s.params.layout.stat.wf = true →
          (s.params.layout.stat.tableWord v).getLsbD 10 = false →
          ∃ rest : List Byte, byteGroups rest = gs ∧ resume (.auxFill tx rx) v s = s.push [.auxPush g rest rx]
            ∧ ∀ u : State, hostOp (.auxPush g rest rx) u = mapNext (fun t => t.push [.auxFill rest rx])
                (exec (Instr.wr false (groupWord u.host.ctx.bitOrder g) (if gs = [] then .io else .txhold)) u))

/-- R115 with R248 and R249: a group packed, shifted out and echoed back unpacks to the same bytes, under either bit
order. -/
def Obligations.EchoedGroup : Prop :=
  ∀ (o : BitOrder) (g : List Byte), 1 ≤ g.length → g.length ≤ 3 →
    (unpackGroup g.length ((shiftedBits true (8 * g.length) (groupWord o g)).setWidth 32)).map (orderByte o) = g

/-- R272, R273, R283, R285, R302 and R344, for every sequence. A pin, pad group, pull mode or frequency out of range is
refused; with its operands in range a sequence faults for an unmapped handle it needs, the first in the order listed
here, and with every handle mapped it starts; whatever the handles, the guarded sequences and those that touch no register
start, and with their handle unmapped the guarded ones touch no register either. That operands are checked before handles, a pin before the pull mode, and the pin of `get_pull` in both generations, is the model's choice
(log entry 20). -/
def Obligations.CallPreconditions : Prop :=
  ∀ s : State,
    let h := s.host.ctx.handles
    let v := s.host.ctx.variant
    let groups := s.params.padGroups.length
    (∀ (c : Call) (pin : Nat), c.pinOperand = some pin → 54 ≤ pin → startCall c s = .refused .pinOutOfRange)
    ∧ (∀ g bits, groups ≤ g → startCall (.getPadControl g) s = .refused .padGroupOutOfRange
        ∧ startCall (.setPadControl g bits) s = .refused .padGroupOutOfRange)
    ∧ (v = .legacy → ∀ pin : Nat, pin < 54 → startCall (.setPull pin none) s = .refused .invalidPullMode)
    ∧ startCall (.spi0SetSpeedHz 0) s = .refused .zeroFrequency
    ∧ (∀ c : Call, (∀ pin, c.pinOperand = some pin → pin < 54) →
        (∀ g bits, groups ≤ g → c ≠ .getPadControl g ∧ c ≠ .setPadControl g bits) →
        (∀ pin, v = .legacy → c ≠ .setPull pin none) → c ≠ .spi0SetSpeedHz 0 → (∀ b : Block, h.mapped b = true) →
          startCall c s = .next (beginCall c s))
    ∧ (h.gpio = false →
        (∀ (c : Call) (pin : Nat), c.pinOperand = some pin → pin < 54 →
          (v = .legacy → c ≠ .setPull pin none ∧ c ≠ .getPull pin) → startCall c s = .fault (.unmappedAccess .gpio))
        ∧ (∀ x m, startCall (.writeMask x m) s = .fault (.unmappedAccess .gpio))
        ∧ (∀ m, v = .legacy → startCall (.pud m) s = .fault (.unmappedAccess .gpio))
        ∧ startCall .spi0Begin s = .fault (.unmappedAccess .gpio)
        ∧ startCall .spi0End s = .fault (.unmappedAccess .gpio)
        ∧ startCall .auxBegin s = .fault (.unmappedAccess .gpio))
    ∧ (h.spi0 = false →
        (∀ hz, hz ≠ 0 → startCall (.spi0SetSpeedHz hz) s = .fault (.unmappedAccess .spi0))
        ∧ (∀ d, startCall (.spi0SetDivider d) s = .fault (.unmappedAccess .spi0))
        ∧ (∀ m, startCall (.spi0SetMode m) s = .fault (.unmappedAccess .spi0))
        ∧ (∀ cs, startCall (.spi0ChipSelect cs) s = .fault (.unmappedAccess .spi0))
        ∧ (∀ i active, startCall (.spi0SetCsPolarity i active) s = .fault (.unmappedAccess .spi0))
        ∧ (∀ b, startCall (.spi0Transfer b) s = .fault (.unmappedAccess .spi0))
        ∧ (∀ tx, startCall (.spi0TransferBuf tx) s = .fault (.unmappedAccess .spi0)
            ∧ startCall (.spi0WriteBuf tx) s = .fault (.unmappedAccess .spi0))
        ∧ (h.gpio = true → startCall .spi0Begin s = .fault (.unmappedAccess .spi0)))
    ∧ (h.gpio = true → h.aux = false → startCall .auxBegin s = .fault (.unmappedAccess .aux))
    ∧ (h.spi1 = false →
        startCall .auxReset s = .fault (.unmappedAccess .spi1)
        ∧ (∀ d, startCall (.auxWrite16 d) s = .fault (.unmappedAccess .spi1))
        ∧ (∀ b, startCall (.auxTransfer b) s = .fault (.unmappedAccess .spi1))
        ∧ (∀ tx, startCall (.auxTransferBuf tx) s = .fault (.unmappedAccess .spi1)
            ∧ startCall (.auxWriteBuf tx) s = .fault (.unmappedAccess .spi1))
        ∧ (h.gpio = true → h.aux = true → startCall .auxBegin s = .fault (.unmappedAccess .spi1)))
    ∧ (∀ nb r x m, h.mapped r.block = false → startCall (.setBits nb r x m) s = .fault (.unmappedAccess r.block))
    ∧ (v = .legacy → ∀ pin : Nat, pin < 54 → startCall (.getPull pin) s = .next (beginCall (.getPull pin) s)
        ∧ Call.ops s.params s.host.ctx (.getPull pin) = [.answer (.pull .error)])
    ∧ (v = .modern → ∀ m, startCall (.pud m) s = .next (beginCall (.pud m) s)
        ∧ Call.ops s.params s.host.ctx (.pud m) = [])
    ∧ (h.pads = false → ∀ g bits, g < groups →
        Call.ops s.params s.host.ctx (.getPadControl g) = [.answer (.word 0)]
        ∧ Call.ops s.params s.host.ctx (.setPadControl g bits) = [])
    ∧ (h.st = false → hostOp .readCounter s = .next (s.counted 0))
    ∧ (∀ g bits, g < groups → startCall (.getPadControl g) s = .next (beginCall (.getPadControl g) s)
        ∧ startCall (.setPadControl g bits) s = .next (beginCall (.setPadControl g bits) s))
    ∧ (∀ offset duration : BitVec 64, ∀ c ∈ ([.readCounter, .delayMicros offset duration, .delay duration] : List Call),
        startCall c s = .next (beginCall c s))
    ∧ (∀ (resolved : Handles) (o : BitOrder) (n : Nat) (b : Byte),
        ∀ c ∈ ([.init resolved, .close, .setBitOrder o, .auxCalcDivider n, .auxSetDivider n, .bitReverse b, .order b] : List Call),
          startCall c s = .next (beginCall c s) ∧ ∀ op ∈ Call.ops s.params s.host.ctx c, ∃ a : Answer, op = .answer a)

/-- R292 with R60: after its first `read_counter` the hybrid delay sleeps only, sleeps and polls, or polls, as the count
and the duration say; a sleep of `d` keeps the host from its next operation until `d` ticks have passed. -/
def Obligations.HybridDelay : Prop :=
  (∀ (s : State) (d : BitVec 64),
    (s.host.counter = 0 → startDelay d s = s.push [.sleep d.toNat])
    ∧ (s.host.counter ≠ 0 → 450 < d.toNat →
        startDelay d s = s.push [.sleep (d.toNat - 200), .readCounter, .delayCheck (s.host.counter + d)])
    ∧ (s.host.counter ≠ 0 → d.toNat ≤ 450 →
        startDelay d s = s.push [.readCounter, .delayCheck (s.host.counter + d)]))
  ∧ (∀ (s : State) (target : BitVec 64),
      hostOp (.delayCheck target) s =
        .next (if s.host.counter.toNat < target.toNat then s.push [.readCounter, .delayCheck target] else s))
  ∧ (∀ (s : State) (d k : Nat), s.host.sleepLeft = 0 → k < d →
      hostStep (timerStep^[k] (sleepStep d s)) = .next (timerStep^[k] (sleepStep d s)))

/-! ### The whole machine -/

/-- R62, R33, R191, R60: a step appends at most one transaction to the history, and only an engine does; the counter moves
only by the timer; only `SetExt` changes the world outside, a restart of the software included among those that do not
(R371); the parameters never change (R5). And a step is the step of the agent at the head of the agenda, or of any agent
when the agenda is empty (R10, R83), each agent taking its own: the agenda is the model's (log entry 4). -/
def Obligations.WhoChangesWhat : Prop :=
  (∀ (a : Agent) (s t : State), runAgent a s = .next t →
    t.params = s.params
    ∧ (t.hist = s.hist ∨ ((a = .spi0Shift ∨ a = .spi1Shift) ∧ ∃ e, t.hist = s.hist ++ [e]))
    ∧ (a ≠ .timer → t.cnt = s.cnt)
    ∧ ((∀ q l, a ≠ .setExt q l) → t.env = s.env))
  ∧ (∀ (s : State) (a : Agent) (rest : List Agent), s.agenda = a :: rest → step s = runAgent a { s with agenda := rest })
  ∧ (∀ s : State, s.agenda = [] → step s = runAgent (Config.freeAgent s.draws) { s with draws := s.draws + 1 })
  ∧ (∀ (s : State) (p : Pin) (l : Ext) (d : Nat),
      runAgent .host s = hostStep s ∧ runAgent .timer s = .next (timerStep s) ∧ runAgent .sample s = .next (sampleStep s)
      ∧ runAgent (.pudLatch p) s = .next (pudLatchStep p s) ∧ runAgent .spi0Shift s = spi0ShiftStep s
      ∧ runAgent .spi1Shift s = spi1ShiftStep s ∧ runAgent .rxPush s = .next (rxPushStep s)
      ∧ runAgent (.setExt p l) s = .next (setExtStep p l s) ∧ runAgent (.sleep d) s = .next (sleepStep d s))

/-- R50, R46, R47, R62: what the spec says of the state after reset; every other reset value is the model's choice (log
entry 1) and is not stated. And R371: a restart of the software keeps all of the hardware and the world outside and gives
the driver context its initial values again; that the next run's program stands in `runs` is the model's own (log entry
30). -/
def Obligations.ResetState : Prop :=
  (∀ p : Pin, State.reset.gpio.arm.get p = .none) ∧ State.reset.lastNb = none ∧ State.reset.hist = []
    ∧ (∀ b : Block, State.reset.host.ctx.handles.mapped b = false)
    ∧ State.reset.host.ctx.bitOrder = .msbFirst ∧ State.reset.host.ctx.auxSpeed = 0 ∧ State.reset.host.ctx.pudCompat = .off
    ∧ State.reset.QueuesBounded
    ∧ ∀ s : State, ∃ t : State, runAgent .restart s = .next t ∧ t = { s with host := t.host }
        ∧ t.host.todo = s.host.runs.headD [] ∧ t.host.runs = s.host.runs.tail
        ∧ (∀ b : Block, t.host.ctx.handles.mapped b = false)
        ∧ t.host.ctx.bitOrder = .msbFirst ∧ t.host.ctx.auxSpeed = 0 ∧ t.host.ctx.pudCompat = .off

/-- The invariant holds after reset. -/
def Obligations.ResetInvariant : Prop := State.reset.Inv

/-- Every step of every agent keeps the invariant: FIFOs within their depths (R36, R42, R43, R218), no reserved value
stored (R163, R202), SPI1 empty while held clear (R235), latches armed only under their clock (R165, R181), `SPEED` within
its width (R41). -/
def Obligations.StepKeepsInvariant : Prop :=
  ∀ s t : State, s.Inv → step s = .next t → t.Inv
end

