-- ==== Sys2Proof/Laws/Bits.lean ====
section
/-! SUPPORT. Bits of the assembled values: what `packBits` and `packPins` hold at each position, and what the
register images and writes of Machine/Operands.lean hold for each pin. -/

namespace Sys2Proof.Machine

/-! ### Slices of assembled values -/

theorem slice_eq {n m : Nat} {x : BitVec n} {y : BitVec m} {a : Nat} (h : ∀ i, i < m → x.getLsbD (a + i) = y.getLsbD i) :
    x.extractLsb' a m = y := by
  apply BitVec.eq_of_getLsbD_eq
  intro i hi
  rw [BitVec.getLsbD_extractLsb', h i hi, decide_eq_true hi, Bool.true_and]

/-- A slice of the upper part of an appended value. -/
theorem slice_append_hi {n m : Nat} (x : BitVec n) (y : BitVec m) (a k : Nat) (h : m ≤ a) :
    (x ++ y).extractLsb' a k = x.extractLsb' (a - m) k := by
  apply slice_eq
  intro i hi
  rw [BitVec.getLsbD_append, if_neg (by omega), BitVec.getLsbD_extractLsb', decide_eq_true hi, Bool.true_and]
  congr 1
  omega

/-- A slice of the lower part of an appended value. -/
theorem slice_append_lo {n m : Nat} (x : BitVec n) (y : BitVec m) (a k : Nat) (h : a + k ≤ m) :
    (x ++ y).extractLsb' a k = y.extractLsb' a k := by
  apply slice_eq
  intro i hi
  rw [BitVec.getLsbD_append, if_pos (by omega), BitVec.getLsbD_extractLsb', decide_eq_true hi, Bool.true_and]

theorem bit_append_hi {n m : Nat} (x : BitVec n) (y : BitVec m) (a : Nat) (h : m ≤ a) :
    (x ++ y).getLsbD a = x.getLsbD (a - m) := by
  rw [BitVec.getLsbD_append, if_neg (by omega)]

theorem bit_append_lo {n m : Nat} (x : BitVec n) (y : BitVec m) (a : Nat) (h : a < m) :
    (x ++ y).getLsbD a = y.getLsbD a := by
  rw [BitVec.getLsbD_append, if_pos h]

theorem slice_slice {n : Nat} (x : BitVec n) (a k b m : Nat) (h : b + m ≤ k) :
    (x.extractLsb' a k).extractLsb' b m = x.extractLsb' (a + b) m := by
  apply slice_eq
  intro i hi
  rw [BitVec.getLsbD_extractLsb', BitVec.getLsbD_extractLsb', decide_eq_true hi, decide_eq_true (by omega : b + i < k),
    Nat.add_assoc]

theorem bit_slice {n : Nat} (x : BitVec n) (a k b : Nat) (h : b < k) :
    (x.extractLsb' a k).getLsbD b = x.getLsbD (a + b) := by
  rw [BitVec.getLsbD_extractLsb', decide_eq_true h, Bool.true_and]

theorem slice_full {n : Nat} (x : BitVec n) : x.extractLsb' 0 n = x := by
  apply slice_eq
  intro i _
  rw [Nat.zero_add]

/-- Two neighbouring slices are one. -/
theorem slice_join {n : Nat} (x : BitVec n) (a k b m : Nat) (h : a = b + m) :
    x.extractLsb' a k ++ x.extractLsb' b m = x.extractLsb' b (k + m) := by
  subst h
  apply BitVec.eq_of_getLsbD_eq
  intro i hi
  rw [BitVec.getLsbD_append, BitVec.getLsbD_extractLsb', BitVec.getLsbD_extractLsb', BitVec.getLsbD_extractLsb',
    decide_eq_true hi]
  split
  · rename_i h
    rw [decide_eq_true h]
  · rw [decide_eq_true (by omega : i - m < k), Nat.add_assoc, Nat.add_sub_cancel' (by omega : m ≤ i)]

@[simp] theorem bit1_getLsbD (b : Bool) : (bit1 b).getLsbD 0 = b := by
  cases b <;> rfl

/-- A one-bit slice is the field of its bit. -/
theorem slice_one {n : Nat} (x : BitVec n) (a : Nat) : x.extractLsb' a 1 = bit1 (x.getLsbD a) := by
  apply slice_eq
  intro i hi
  obtain rfl : i = 0 := by omega
  rw [bit1_getLsbD]
  rfl

/-! ### Packed bits -/

theorem packBits_getLsbD (n : Nat) (f : Nat → Bool) (i : Nat) : (packBits n f).getLsbD i = (decide (i < n) && f i) := by
  induction n generalizing i with
  | zero => simp [packBits]
  | succ n ih =>
    rw [packBits, BitVec.getLsbD_cons, ih]
    by_cases h : i = n
    · simp [h]
    · by_cases h2 : i < n
      · simp [h, h2, Nat.lt_succ_of_lt h2]
      · simp [h, h2, show ¬ i < n + 1 by omega]

theorem packPins_getLsbD (f : Pin → Bool) (p : Pin) : (packPins f).getLsbD p.val = f p := by
  have hp := p.isLt
  simp only [packPins, packBits_getLsbD, hp, decide_true, Bool.true_and, dif_pos]

/-- `packPins_getLsbD` in the form `simp` brings a bit of known position to. -/
@[simp] theorem packPins_getElem (f : Pin → Bool) (p : Pin) (h : p.val < numPins) : (packPins f)[p.val] = f p := by
  rw [← BitVec.getLsbD_eq_getElem]
  exact packPins_getLsbD f p

/-- Two arrays of one bit per pin are equal when they agree on every pin. -/
theorem pinBits_ext {a b : PinBits} (h : ∀ p : Pin, a.getLsbD p.val = b.getLsbD p.val) : a = b := by
  apply BitVec.eq_of_getLsbD_eq
  intro i hi
  exact h ⟨i, hi⟩

/-- Two vectors of one value per pin are equal when they agree on every pin. -/
theorem vector_ext_get {α : Type} {n : Nat} {a b : Vector α n} (h : ∀ p : Fin n, a.get p = b.get p) : a = b := by
  apply Vector.ext
  intro i hi
  exact h ⟨i, hi⟩

theorem vector_get_eq {α : Type} {n : Nat} (v : Vector α n) (p : Fin n) : v.get p = v[p.val] := rfl

theorem tabulate_getElem {α : Type} (n : Nat) (f : Fin n → α) (i : Nat) (h : i < n) (h' : i < (tabulate n f).length) :
    (tabulate n f)[i]'h' = f ⟨i, h⟩ := by
  induction n generalizing i with
  | zero => omega
  | succ n ih =>
    cases i with
    | zero => rfl
    | succ i => exact ih (fun j => f j.succ) i (by omega) _

@[simp] theorem pinVector_get {α : Type} (f : Pin → α) (p : Pin) : (pinVector f).get p = f p :=
  tabulate_getElem numPins f p.val p.isLt _

theorem vector_set_get {α : Type} {n : Nat} (v : Vector α n) (p q : Fin n) (x : α) :
    (v.set p x).get q = if p = q then x else v.get q := by
  simp only [vector_get_eq, Vector.getElem_set, Fin.ext_iff]

@[simp] theorem vector_replicate_get {α : Type} {n : Nat} (x : α) (p : Fin n) : (Vector.replicate n x).get p = x := by
  rw [vector_get_eq, Vector.getElem_replicate]

theorem inMember_iff (k n : Nat) (p : Pin) : inMember k n p = true ↔ p.val / k = n := by simp [inMember]

theorem pairWrite_getLsbD (n : Nat) (v : Word) (a : PinBits) (p : Pin) :
    (pairWrite n v a).getLsbD p.val = if p.val / 32 = n then v.getLsbD (p.val % 32) else a.getLsbD p.val := by
  simp only [pairWrite, packPins_getLsbD, inMember, beq_iff_eq]

theorem pairSet_getLsbD (n : Nat) (v : Word) (a : PinBits) (p : Pin) :
    (pairSet n v a).getLsbD p.val = (a.getLsbD p.val || (decide (p.val / 32 = n) && v.getLsbD (p.val % 32))) := by
  simp only [pairSet, packPins_getLsbD, inMember]
  rfl

theorem pairClear_getLsbD (n : Nat) (v : Word) (a : PinBits) (p : Pin) :
    (pairClear n v a).getLsbD p.val = (a.getLsbD p.val && !(decide (p.val / 32 = n) && v.getLsbD (p.val % 32))) := by
  simp only [pairClear, packPins_getLsbD, inMember]
  rfl

/-- The bit of a pin in the image of its register. -/
theorem pairWord_getLsbD (n : Nat) (a : PinBits) (d : Word) (p : Pin) (h : p.val / 32 = n) :
    (pairWord n a d).getLsbD (p.val % 32) = a.getLsbD p.val := by
  have hp := p.isLt
  unfold numPins at hp
  have e : 32 * n + p.val % 32 = p.val := by omega
  simp only [pairWord, packBits_getLsbD, e, numPins, hp, if_true, Nat.mod_lt, Nat.zero_lt_succ, decide_true,
    Bool.true_and]

/-- A reserved bit of a one-bit-per-pin register is the drawn one. -/
theorem pairWord_reserved (n : Nat) (a : PinBits) (d : Word) (i : Nat) (hi : i < 32) (h : numPins ≤ 32 * n + i) :
    (pairWord n a d).getLsbD i = d.getLsbD i := by
  simp only [pairWord, packBits_getLsbD, hi, Nat.not_lt.mpr h, if_false, decide_true, Bool.true_and]

/-- The function-select field of a pin in the image of its register. -/
theorem fselWord_field (c : FselCodes) (n : Nat) (f : Vector FunSel numPins) (d : Word) (p : Pin) (h : p.val / 10 = n) :
    (fselWord c n f d).extractLsb' (shift3 p.val) 3 = c.code (f.get p) := by
  have hp := p.isLt
  unfold numPins at hp
  apply BitVec.eq_of_getLsbD_eq
  intro i hi
  have e1 : (shift3 p.val + i) / 3 = p.val % 10 := by unfold shift3; omega
  have e2 : (shift3 p.val + i) % 3 = i := by unfold shift3; omega
  have e3 : 10 * n + p.val % 10 = p.val := by omega
  have e4 : shift3 p.val + i < 30 := by unfold shift3; omega
  simp only [BitVec.getLsbD_extractLsb', fselWord, packBits_getLsbD, hi, e1, e2, e3, e4]
  simp [numPins, hp, show shift3 p.val + i < 32 by omega]

/-- The pull field of a pin in the image of its register. -/
theorem puppdnWord_field (n : Nat) (f : Vector (BitVec 2) numPins) (d : Word) (p : Pin) (h : p.val / 16 = n) :
    (puppdnWord n f d).extractLsb' (shift2 p.val) 2 = f.get p := by
  have hp := p.isLt
  unfold numPins at hp
  apply BitVec.eq_of_getLsbD_eq
  intro i hi
  have e1 : (shift2 p.val + i) / 2 = p.val % 16 := by unfold shift2; omega
  have e2 : (shift2 p.val + i) % 2 = i := by unfold shift2; omega
  have e3 : 16 * n + p.val % 16 = p.val := by omega
  simp only [BitVec.getLsbD_extractLsb', puppdnWord, packBits_getLsbD, hi, e1, e2, e3]
  simp [numPins, hp, show shift2 p.val + i < 32 by unfold shift2; omega]

/-- With distinct codes a mode is read back from its code. -/
theorem FselCodes.decode_code {c : FselCodes} (hc : c.wf = true) (m : FunSel) : c.decode (c.code m) = m := by
  simp only [FselCodes.wf, decide_eq_true_eq, List.nodup_cons, List.mem_cons, List.not_mem_nil, or_false, not_or] at hc
  obtain ⟨h0, h1, h2, h3, h4, h5, h6, -⟩ := hc
  cases m <;> simp_all [FselCodes.decode, FselCodes.code, eq_comm]

/-- With eight distinct codes every 3-bit value is the code of the mode it decodes to. -/
theorem FselCodes.code_decode {c : FselCodes} (hc : c.wf = true) (v : BitVec 3) : c.code (c.decode v) = v := by
  by_contra hv
  have h : (v :: [c.input, c.output, c.alt0, c.alt1, c.alt2, c.alt3, c.alt4, c.alt5]).Nodup := by
    refine List.nodup_cons.mpr ⟨fun h => hv ?_, of_decide_eq_true hc⟩
    simp only [List.mem_cons, List.not_mem_nil, or_false] at h
    unfold FselCodes.decode
    split_ifs <;> simp_all [FselCodes.code]
  have := (h.map (f := BitVec.toFin) fun _ _ => BitVec.eq_of_toFin_eq).length_le_card
  simp at this

@[simp] theorem fselWrite_get (c : FselCodes) (n : Nat) (v : Word) (f : Vector FunSel numPins) (p : Pin) :
    (fselWrite c n v f).get p =
      if p.val / 10 = n then c.decode (v.extractLsb' (shift3 p.val) 3) else f.get p := by
  simp [fselWrite, inMember]

@[simp] theorem puppdnWrite_get (n : Nat) (v : Word) (f : Vector (BitVec 2) numPins) (p : Pin) :
    (puppdnWrite n v f).get p = if p.val / 16 = n then v.extractLsb' (shift2 p.val) 2 else f.get p := by
  simp [puppdnWrite, inMember]

/-- Bit `i` of a reversed byte is bit `7 - i` (R330). -/
theorem bitReverse_getLsbD (b : Byte) (i : Nat) (hi : i < 8) : (bitReverse b).getLsbD i = b.getLsbD (7 - i) := by
  simp only [bitReverse, packBits_getLsbD, hi, decide_true, Bool.true_and]

@[simp] theorem bitReverse_bitReverse (b : Byte) : bitReverse (bitReverse b) = b := by
  apply BitVec.eq_of_getLsbD_eq
  intro i hi
  rw [bitReverse_getLsbD _ _ hi, bitReverse_getLsbD _ _ (by omega)]
  congr 1
  omega

@[simp] theorem orderByte_orderByte (o : BitOrder) (b : Byte) : orderByte o (orderByte o b) = b := by
  cases o <;> simp [orderByte]

end Sys2Proof.Machine
end

