-- ==== Sys2Proof/Laws/State.lean ====
section
/-! SUPPORT. One lemma per field per update of the state, each true by definition, so that no proof unfolds an
update. The proofs stand in parentheses, `(rfl)`, so that rewriting with a lemma leaves it in the proof: the kernel then
never compares two whole states to see that one field agrees. -/

namespace Sys2Proof.Machine

/-! ### `withGpio` -/

@[simp] theorem State.withGpio_params (s : State) (g : Gpio) : (s.withGpio g).params = s.params := (rfl)
@[simp] theorem State.withGpio_gpio (s : State) (g : Gpio) : (s.withGpio g).gpio = g := (rfl)
@[simp] theorem State.withGpio_pads (s : State) (g : Gpio) : (s.withGpio g).pads = s.pads := (rfl)
@[simp] theorem State.withGpio_cnt (s : State) (g : Gpio) : (s.withGpio g).cnt = s.cnt := (rfl)
@[simp] theorem State.withGpio_spi0 (s : State) (g : Gpio) : (s.withGpio g).spi0 = s.spi0 := (rfl)
@[simp] theorem State.withGpio_aux (s : State) (g : Gpio) : (s.withGpio g).aux = s.aux := (rfl)
@[simp] theorem State.withGpio_spi1 (s : State) (g : Gpio) : (s.withGpio g).spi1 = s.spi1 := (rfl)
@[simp] theorem State.withGpio_env (s : State) (g : Gpio) : (s.withGpio g).env = s.env := (rfl)
@[simp] theorem State.withGpio_hist (s : State) (g : Gpio) : (s.withGpio g).hist = s.hist := (rfl)
@[simp] theorem State.withGpio_lastNb (s : State) (g : Gpio) : (s.withGpio g).lastNb = s.lastNb := (rfl)
@[simp] theorem State.withGpio_result (s : State) (g : Gpio) : (s.withGpio g).result = s.result := (rfl)
@[simp] theorem State.withGpio_host (s : State) (g : Gpio) : (s.withGpio g).host = s.host := (rfl)
@[simp] theorem State.withGpio_agenda (s : State) (g : Gpio) : (s.withGpio g).agenda = s.agenda := (rfl)
@[simp] theorem State.withGpio_draws (s : State) (g : Gpio) : (s.withGpio g).draws = s.draws := (rfl)

/-! ### `withPads` -/

@[simp] theorem State.withPads_params (s : State) (p : Vector (BitVec 5) 3) : (s.withPads p).params = s.params := (rfl)
@[simp] theorem State.withPads_gpio (s : State) (p : Vector (BitVec 5) 3) : (s.withPads p).gpio = s.gpio := (rfl)
@[simp] theorem State.withPads_pads (s : State) (p : Vector (BitVec 5) 3) : (s.withPads p).pads = p := (rfl)
@[simp] theorem State.withPads_cnt (s : State) (p : Vector (BitVec 5) 3) : (s.withPads p).cnt = s.cnt := (rfl)
@[simp] theorem State.withPads_spi0 (s : State) (p : Vector (BitVec 5) 3) : (s.withPads p).spi0 = s.spi0 := (rfl)
@[simp] theorem State.withPads_aux (s : State) (p : Vector (BitVec 5) 3) : (s.withPads p).aux = s.aux := (rfl)
@[simp] theorem State.withPads_spi1 (s : State) (p : Vector (BitVec 5) 3) : (s.withPads p).spi1 = s.spi1 := (rfl)
@[simp] theorem State.withPads_env (s : State) (p : Vector (BitVec 5) 3) : (s.withPads p).env = s.env := (rfl)
@[simp] theorem State.withPads_hist (s : State) (p : Vector (BitVec 5) 3) : (s.withPads p).hist = s.hist := (rfl)
@[simp] theorem State.withPads_lastNb (s : State) (p : Vector (BitVec 5) 3) : (s.withPads p).lastNb = s.lastNb := (rfl)
@[simp] theorem State.withPads_result (s : State) (p : Vector (BitVec 5) 3) : (s.withPads p).result = s.result := (rfl)
@[simp] theorem State.withPads_host (s : State) (p : Vector (BitVec 5) 3) : (s.withPads p).host = s.host := (rfl)
@[simp] theorem State.withPads_agenda (s : State) (p : Vector (BitVec 5) 3) : (s.withPads p).agenda = s.agenda := (rfl)
@[simp] theorem State.withPads_draws (s : State) (p : Vector (BitVec 5) 3) : (s.withPads p).draws = s.draws := (rfl)

/-! ### `withCnt` -/

@[simp] theorem State.withCnt_params (s : State) (c : BitVec 64) : (s.withCnt c).params = s.params := (rfl)
@[simp] theorem State.withCnt_gpio (s : State) (c : BitVec 64) : (s.withCnt c).gpio = s.gpio := (rfl)
@[simp] theorem State.withCnt_pads (s : State) (c : BitVec 64) : (s.withCnt c).pads = s.pads := (rfl)
@[simp] theorem State.withCnt_cnt (s : State) (c : BitVec 64) : (s.withCnt c).cnt = c := (rfl)
@[simp] theorem State.withCnt_spi0 (s : State) (c : BitVec 64) : (s.withCnt c).spi0 = s.spi0 := (rfl)
@[simp] theorem State.withCnt_aux (s : State) (c : BitVec 64) : (s.withCnt c).aux = s.aux := (rfl)
@[simp] theorem State.withCnt_spi1 (s : State) (c : BitVec 64) : (s.withCnt c).spi1 = s.spi1 := (rfl)
@[simp] theorem State.withCnt_env (s : State) (c : BitVec 64) : (s.withCnt c).env = s.env := (rfl)
@[simp] theorem State.withCnt_hist (s : State) (c : BitVec 64) : (s.withCnt c).hist = s.hist := (rfl)
@[simp] theorem State.withCnt_lastNb (s : State) (c : BitVec 64) : (s.withCnt c).lastNb = s.lastNb := (rfl)
@[simp] theorem State.withCnt_result (s : State) (c : BitVec 64) : (s.withCnt c).result = s.result := (rfl)
@[simp] theorem State.withCnt_host (s : State) (c : BitVec 64) : (s.withCnt c).host = s.host := (rfl)
@[simp] theorem State.withCnt_agenda (s : State) (c : BitVec 64) : (s.withCnt c).agenda = s.agenda := (rfl)
@[simp] theorem State.withCnt_draws (s : State) (c : BitVec 64) : (s.withCnt c).draws = s.draws := (rfl)

/-! ### `withSpi0` -/

@[simp] theorem State.withSpi0_params (s : State) (p : Spi0) : (s.withSpi0 p).params = s.params := (rfl)
@[simp] theorem State.withSpi0_gpio (s : State) (p : Spi0) : (s.withSpi0 p).gpio = s.gpio := (rfl)
@[simp] theorem State.withSpi0_pads (s : State) (p : Spi0) : (s.withSpi0 p).pads = s.pads := (rfl)
@[simp] theorem State.withSpi0_cnt (s : State) (p : Spi0) : (s.withSpi0 p).cnt = s.cnt := (rfl)
@[simp] theorem State.withSpi0_spi0 (s : State) (p : Spi0) : (s.withSpi0 p).spi0 = p := (rfl)
@[simp] theorem State.withSpi0_aux (s : State) (p : Spi0) : (s.withSpi0 p).aux = s.aux := (rfl)
@[simp] theorem State.withSpi0_spi1 (s : State) (p : Spi0) : (s.withSpi0 p).spi1 = s.spi1 := (rfl)
@[simp] theorem State.withSpi0_env (s : State) (p : Spi0) : (s.withSpi0 p).env = s.env := (rfl)
@[simp] theorem State.withSpi0_hist (s : State) (p : Spi0) : (s.withSpi0 p).hist = s.hist := (rfl)
@[simp] theorem State.withSpi0_lastNb (s : State) (p : Spi0) : (s.withSpi0 p).lastNb = s.lastNb := (rfl)
@[simp] theorem State.withSpi0_result (s : State) (p : Spi0) : (s.withSpi0 p).result = s.result := (rfl)
@[simp] theorem State.withSpi0_host (s : State) (p : Spi0) : (s.withSpi0 p).host = s.host := (rfl)
@[simp] theorem State.withSpi0_agenda (s : State) (p : Spi0) : (s.withSpi0 p).agenda = s.agenda := (rfl)
@[simp] theorem State.withSpi0_draws (s : State) (p : Spi0) : (s.withSpi0 p).draws = s.draws := (rfl)

/-! ### `withAux` -/

@[simp] theorem State.withAux_params (s : State) (a : Aux) : (s.withAux a).params = s.params := (rfl)
@[simp] theorem State.withAux_gpio (s : State) (a : Aux) : (s.withAux a).gpio = s.gpio := (rfl)
@[simp] theorem State.withAux_pads (s : State) (a : Aux) : (s.withAux a).pads = s.pads := (rfl)
@[simp] theorem State.withAux_cnt (s : State) (a : Aux) : (s.withAux a).cnt = s.cnt := (rfl)
@[simp] theorem State.withAux_spi0 (s : State) (a : Aux) : (s.withAux a).spi0 = s.spi0 := (rfl)
@[simp] theorem State.withAux_aux (s : State) (a : Aux) : (s.withAux a).aux = a := (rfl)
@[simp] theorem State.withAux_spi1 (s : State) (a : Aux) : (s.withAux a).spi1 = s.spi1 := (rfl)
@[simp] theorem State.withAux_env (s : State) (a : Aux) : (s.withAux a).env = s.env := (rfl)
@[simp] theorem State.withAux_hist (s : State) (a : Aux) : (s.withAux a).hist = s.hist := (rfl)
@[simp] theorem State.withAux_lastNb (s : State) (a : Aux) : (s.withAux a).lastNb = s.lastNb := (rfl)
@[simp] theorem State.withAux_result (s : State) (a : Aux) : (s.withAux a).result = s.result := (rfl)
@[simp] theorem State.withAux_host (s : State) (a : Aux) : (s.withAux a).host = s.host := (rfl)
@[simp] theorem State.withAux_agenda (s : State) (a : Aux) : (s.withAux a).agenda = s.agenda := (rfl)
@[simp] theorem State.withAux_draws (s : State) (a : Aux) : (s.withAux a).draws = s.draws := (rfl)

/-! ### `withSpi1` -/

@[simp] theorem State.withSpi1_params (s : State) (p : Spi1) : (s.withSpi1 p).params = s.params := (rfl)
@[simp] theorem State.withSpi1_gpio (s : State) (p : Spi1) : (s.withSpi1 p).gpio = s.gpio := (rfl)
@[simp] theorem State.withSpi1_pads (s : State) (p : Spi1) : (s.withSpi1 p).pads = s.pads := (rfl)
@[simp] theorem State.withSpi1_cnt (s : State) (p : Spi1) : (s.withSpi1 p).cnt = s.cnt := (rfl)
@[simp] theorem State.withSpi1_spi0 (s : State) (p : Spi1) : (s.withSpi1 p).spi0 = s.spi0 := (rfl)
@[simp] theorem State.withSpi1_aux (s : State) (p : Spi1) : (s.withSpi1 p).aux = s.aux := (rfl)
@[simp] theorem State.withSpi1_spi1 (s : State) (p : Spi1) : (s.withSpi1 p).spi1 = p := (rfl)
@[simp] theorem State.withSpi1_env (s : State) (p : Spi1) : (s.withSpi1 p).env = s.env := (rfl)
@[simp] theorem State.withSpi1_hist (s : State) (p : Spi1) : (s.withSpi1 p).hist = s.hist := (rfl)
@[simp] theorem State.withSpi1_lastNb (s : State) (p : Spi1) : (s.withSpi1 p).lastNb = s.lastNb := (rfl)
@[simp] theorem State.withSpi1_result (s : State) (p : Spi1) : (s.withSpi1 p).result = s.result := (rfl)
@[simp] theorem State.withSpi1_host (s : State) (p : Spi1) : (s.withSpi1 p).host = s.host := (rfl)
@[simp] theorem State.withSpi1_agenda (s : State) (p : Spi1) : (s.withSpi1 p).agenda = s.agenda := (rfl)
@[simp] theorem State.withSpi1_draws (s : State) (p : Spi1) : (s.withSpi1 p).draws = s.draws := (rfl)

/-! ### `withEnv` -/

@[simp] theorem State.withEnv_params (s : State) (e : Env) : (s.withEnv e).params = s.params := (rfl)
@[simp] theorem State.withEnv_gpio (s : State) (e : Env) : (s.withEnv e).gpio = s.gpio := (rfl)
@[simp] theorem State.withEnv_pads (s : State) (e : Env) : (s.withEnv e).pads = s.pads := (rfl)
@[simp] theorem State.withEnv_cnt (s : State) (e : Env) : (s.withEnv e).cnt = s.cnt := (rfl)
@[simp] theorem State.withEnv_spi0 (s : State) (e : Env) : (s.withEnv e).spi0 = s.spi0 := (rfl)
@[simp] theorem State.withEnv_aux (s : State) (e : Env) : (s.withEnv e).aux = s.aux := (rfl)
@[simp] theorem State.withEnv_spi1 (s : State) (e : Env) : (s.withEnv e).spi1 = s.spi1 := (rfl)
@[simp] theorem State.withEnv_env (s : State) (e : Env) : (s.withEnv e).env = e := (rfl)
@[simp] theorem State.withEnv_hist (s : State) (e : Env) : (s.withEnv e).hist = s.hist := (rfl)
@[simp] theorem State.withEnv_lastNb (s : State) (e : Env) : (s.withEnv e).lastNb = s.lastNb := (rfl)
@[simp] theorem State.withEnv_result (s : State) (e : Env) : (s.withEnv e).result = s.result := (rfl)
@[simp] theorem State.withEnv_host (s : State) (e : Env) : (s.withEnv e).host = s.host := (rfl)
@[simp] theorem State.withEnv_agenda (s : State) (e : Env) : (s.withEnv e).agenda = s.agenda := (rfl)
@[simp] theorem State.withEnv_draws (s : State) (e : Env) : (s.withEnv e).draws = s.draws := (rfl)

/-! ### `logged` -/

@[simp] theorem State.logged_params (s : State) (e : HistEvent) : (s.logged e).params = s.params := (rfl)
@[simp] theorem State.logged_gpio (s : State) (e : HistEvent) : (s.logged e).gpio = s.gpio := (rfl)
@[simp] theorem State.logged_pads (s : State) (e : HistEvent) : (s.logged e).pads = s.pads := (rfl)
@[simp] theorem State.logged_cnt (s : State) (e : HistEvent) : (s.logged e).cnt = s.cnt := (rfl)
@[simp] theorem State.logged_spi0 (s : State) (e : HistEvent) : (s.logged e).spi0 = s.spi0 := (rfl)
@[simp] theorem State.logged_aux (s : State) (e : HistEvent) : (s.logged e).aux = s.aux := (rfl)
@[simp] theorem State.logged_spi1 (s : State) (e : HistEvent) : (s.logged e).spi1 = s.spi1 := (rfl)
@[simp] theorem State.logged_env (s : State) (e : HistEvent) : (s.logged e).env = s.env := (rfl)
@[simp] theorem State.logged_hist (s : State) (e : HistEvent) : (s.logged e).hist = s.hist ++ [e] := (rfl)
@[simp] theorem State.logged_lastNb (s : State) (e : HistEvent) : (s.logged e).lastNb = s.lastNb := (rfl)
@[simp] theorem State.logged_result (s : State) (e : HistEvent) : (s.logged e).result = s.result := (rfl)
@[simp] theorem State.logged_host (s : State) (e : HistEvent) : (s.logged e).host = s.host := (rfl)
@[simp] theorem State.logged_agenda (s : State) (e : HistEvent) : (s.logged e).agenda = s.agenda := (rfl)
@[simp] theorem State.logged_draws (s : State) (e : HistEvent) : (s.logged e).draws = s.draws := (rfl)

/-! ### `withLastNb` -/

@[simp] theorem State.withLastNb_params (s : State) (b : Option Block) : (s.withLastNb b).params = s.params := (rfl)
@[simp] theorem State.withLastNb_gpio (s : State) (b : Option Block) : (s.withLastNb b).gpio = s.gpio := (rfl)
@[simp] theorem State.withLastNb_pads (s : State) (b : Option Block) : (s.withLastNb b).pads = s.pads := (rfl)
@[simp] theorem State.withLastNb_cnt (s : State) (b : Option Block) : (s.withLastNb b).cnt = s.cnt := (rfl)
@[simp] theorem State.withLastNb_spi0 (s : State) (b : Option Block) : (s.withLastNb b).spi0 = s.spi0 := (rfl)
@[simp] theorem State.withLastNb_aux (s : State) (b : Option Block) : (s.withLastNb b).aux = s.aux := (rfl)
@[simp] theorem State.withLastNb_spi1 (s : State) (b : Option Block) : (s.withLastNb b).spi1 = s.spi1 := (rfl)
@[simp] theorem State.withLastNb_env (s : State) (b : Option Block) : (s.withLastNb b).env = s.env := (rfl)
@[simp] theorem State.withLastNb_hist (s : State) (b : Option Block) : (s.withLastNb b).hist = s.hist := (rfl)
@[simp] theorem State.withLastNb_lastNb (s : State) (b : Option Block) : (s.withLastNb b).lastNb = b := (rfl)
@[simp] theorem State.withLastNb_result (s : State) (b : Option Block) : (s.withLastNb b).result = s.result := (rfl)
@[simp] theorem State.withLastNb_host (s : State) (b : Option Block) : (s.withLastNb b).host = s.host := (rfl)
@[simp] theorem State.withLastNb_agenda (s : State) (b : Option Block) : (s.withLastNb b).agenda = s.agenda := (rfl)
@[simp] theorem State.withLastNb_draws (s : State) (b : Option Block) : (s.withLastNb b).draws = s.draws := (rfl)

/-! ### `withResult` -/

@[simp] theorem State.withResult_params (s : State) (r : Option Word) : (s.withResult r).params = s.params := (rfl)
@[simp] theorem State.withResult_gpio (s : State) (r : Option Word) : (s.withResult r).gpio = s.gpio := (rfl)
@[simp] theorem State.withResult_pads (s : State) (r : Option Word) : (s.withResult r).pads = s.pads := (rfl)
@[simp] theorem State.withResult_cnt (s : State) (r : Option Word) : (s.withResult r).cnt = s.cnt := (rfl)
@[simp] theorem State.withResult_spi0 (s : State) (r : Option Word) : (s.withResult r).spi0 = s.spi0 := (rfl)
@[simp] theorem State.withResult_aux (s : State) (r : Option Word) : (s.withResult r).aux = s.aux := (rfl)
@[simp] theorem State.withResult_spi1 (s : State) (r : Option Word) : (s.withResult r).spi1 = s.spi1 := (rfl)
@[simp] theorem State.withResult_env (s : State) (r : Option Word) : (s.withResult r).env = s.env := (rfl)
@[simp] theorem State.withResult_hist (s : State) (r : Option Word) : (s.withResult r).hist = s.hist := (rfl)
@[simp] theorem State.withResult_lastNb (s : State) (r : Option Word) : (s.withResult r).lastNb = s.lastNb := (rfl)
@[simp] theorem State.withResult_result (s : State) (r : Option Word) : (s.withResult r).result = r := (rfl)
@[simp] theorem State.withResult_host (s : State) (r : Option Word) : (s.withResult r).host = s.host := (rfl)
@[simp] theorem State.withResult_agenda (s : State) (r : Option Word) : (s.withResult r).agenda = s.agenda := (rfl)
@[simp] theorem State.withResult_draws (s : State) (r : Option Word) : (s.withResult r).draws = s.draws := (rfl)

/-! ### `withHost` -/

@[simp] theorem State.withHost_params (s : State) (h : HostSw) : (s.withHost h).params = s.params := (rfl)
@[simp] theorem State.withHost_gpio (s : State) (h : HostSw) : (s.withHost h).gpio = s.gpio := (rfl)
@[simp] theorem State.withHost_pads (s : State) (h : HostSw) : (s.withHost h).pads = s.pads := (rfl)
@[simp] theorem State.withHost_cnt (s : State) (h : HostSw) : (s.withHost h).cnt = s.cnt := (rfl)
@[simp] theorem State.withHost_spi0 (s : State) (h : HostSw) : (s.withHost h).spi0 = s.spi0 := (rfl)
@[simp] theorem State.withHost_aux (s : State) (h : HostSw) : (s.withHost h).aux = s.aux := (rfl)
@[simp] theorem State.withHost_spi1 (s : State) (h : HostSw) : (s.withHost h).spi1 = s.spi1 := (rfl)
@[simp] theorem State.withHost_env (s : State) (h : HostSw) : (s.withHost h).env = s.env := (rfl)
@[simp] theorem State.withHost_hist (s : State) (h : HostSw) : (s.withHost h).hist = s.hist := (rfl)
@[simp] theorem State.withHost_lastNb (s : State) (h : HostSw) : (s.withHost h).lastNb = s.lastNb := (rfl)
@[simp] theorem State.withHost_result (s : State) (h : HostSw) : (s.withHost h).result = s.result := (rfl)
@[simp] theorem State.withHost_host (s : State) (h : HostSw) : (s.withHost h).host = h := (rfl)
@[simp] theorem State.withHost_agenda (s : State) (h : HostSw) : (s.withHost h).agenda = s.agenda := (rfl)
@[simp] theorem State.withHost_draws (s : State) (h : HostSw) : (s.withHost h).draws = s.draws := (rfl)

/-! ### `withAgenda` -/

@[simp] theorem State.withAgenda_params (s : State) (a : List Agent) : (s.withAgenda a).params = s.params := (rfl)
@[simp] theorem State.withAgenda_gpio (s : State) (a : List Agent) : (s.withAgenda a).gpio = s.gpio := (rfl)
@[simp] theorem State.withAgenda_pads (s : State) (a : List Agent) : (s.withAgenda a).pads = s.pads := (rfl)
@[simp] theorem State.withAgenda_cnt (s : State) (a : List Agent) : (s.withAgenda a).cnt = s.cnt := (rfl)
@[simp] theorem State.withAgenda_spi0 (s : State) (a : List Agent) : (s.withAgenda a).spi0 = s.spi0 := (rfl)
@[simp] theorem State.withAgenda_aux (s : State) (a : List Agent) : (s.withAgenda a).aux = s.aux := (rfl)
@[simp] theorem State.withAgenda_spi1 (s : State) (a : List Agent) : (s.withAgenda a).spi1 = s.spi1 := (rfl)
@[simp] theorem State.withAgenda_env (s : State) (a : List Agent) : (s.withAgenda a).env = s.env := (rfl)
@[simp] theorem State.withAgenda_hist (s : State) (a : List Agent) : (s.withAgenda a).hist = s.hist := (rfl)
@[simp] theorem State.withAgenda_lastNb (s : State) (a : List Agent) : (s.withAgenda a).lastNb = s.lastNb := (rfl)
@[simp] theorem State.withAgenda_result (s : State) (a : List Agent) : (s.withAgenda a).result = s.result := (rfl)
@[simp] theorem State.withAgenda_host (s : State) (a : List Agent) : (s.withAgenda a).host = s.host := (rfl)
@[simp] theorem State.withAgenda_agenda (s : State) (a : List Agent) : (s.withAgenda a).agenda = a := (rfl)
@[simp] theorem State.withAgenda_draws (s : State) (a : List Agent) : (s.withAgenda a).draws = s.draws := (rfl)

/-! ### `drawn` -/

@[simp] theorem State.drawn_params (s : State) : s.drawn.params = s.params := (rfl)
@[simp] theorem State.drawn_gpio (s : State) : s.drawn.gpio = s.gpio := (rfl)
@[simp] theorem State.drawn_pads (s : State) : s.drawn.pads = s.pads := (rfl)
@[simp] theorem State.drawn_cnt (s : State) : s.drawn.cnt = s.cnt := (rfl)
@[simp] theorem State.drawn_spi0 (s : State) : s.drawn.spi0 = s.spi0 := (rfl)
@[simp] theorem State.drawn_aux (s : State) : s.drawn.aux = s.aux := (rfl)
@[simp] theorem State.drawn_spi1 (s : State) : s.drawn.spi1 = s.spi1 := (rfl)
@[simp] theorem State.drawn_env (s : State) : s.drawn.env = s.env := (rfl)
@[simp] theorem State.drawn_hist (s : State) : s.drawn.hist = s.hist := (rfl)
@[simp] theorem State.drawn_lastNb (s : State) : s.drawn.lastNb = s.lastNb := (rfl)
@[simp] theorem State.drawn_result (s : State) : s.drawn.result = s.result := (rfl)
@[simp] theorem State.drawn_host (s : State) : s.drawn.host = s.host := (rfl)
@[simp] theorem State.drawn_agenda (s : State) : s.drawn.agenda = s.agenda := (rfl)
@[simp] theorem State.drawn_draws (s : State) : s.drawn.draws = s.draws + 1 := (rfl)

/-! ### Outcomes -/

@[simp] theorem mapNext_next (f : State → State) (t : State) : mapNext f (.next t) = .next (f t) := (rfl)
@[simp] theorem mapNext_fault (f : State → State) (r : Fault) : mapNext f (.fault r) = .fault r := (rfl)
@[simp] theorem mapNext_refused (f : State → State) (r : Refusal) : mapNext f (.refused r) = .refused r := (rfl)

/-- An outcome mapped answers a next state exactly when the outcome does. -/
theorem mapNext_eq_next (f : State → State) (o : Out) (t : State) : mapNext f o = .next t ↔ ∃ u, o = .next u ∧ t = f u := by
  cases o <;> simp [mapNext, eq_comm]

end Sys2Proof.Machine
end

