-- ==== Sys2Proof/Laws/Rules.lean ====
section
/-! SUPPORT. The 94 meanings as two tables, the read rule and the write rule of each register (the last two columns of
spec/30_encoding.md R103), and the one equation by which `exec` is the generic transaction of R130 or R131 over them.
A claim about all transactions needs the two tables only; a claim about one register opens its line. -/

namespace Sys2Proof.Machine

/-- The generations a register exists in; `none` is both (R103 column "variant"). -/
def variantOf : Reg → Option PudVariant
  | .gppud | .gppudclk _ => some .legacy
  | .gppuppdn _ => some .modern
  | .gpfsel _ | .gpset _ | .gpclr _ | .gplev _ | .gpeds _ | .gpren _ | .gpfen _ | .gphen _ | .gplen _ | .gparen _
  | .gpafen _ | .pads _ | .clo | .chi | .cs | .fifo | .clk | .enb | .cntl0 | .cntl1 | .stat | .io | .txhold => none

/-- The read rule of a register. -/
def readRule : Reg → State → Word × State
  | .gpfsel n => gpfselRead n
  | .gpset _ | .gpclr _ => writeOnlyRead
  | .gplev n => gplevRead n
  | .gpeds n => gpedsRead n
  | .gpren n => gprenRead n
  | .gpfen n => gpfenRead n
  | .gphen n => gphenRead n
  | .gplen n => gplenRead n
  | .gparen n => gparenRead n
  | .gpafen n => gpafenRead n
  | .gppud => gppudRead
  | .gppudclk n => gppudclkRead n
  | .gppuppdn n => gppuppdnRead n
  | .pads g => padsRead g
  | .clo => readPlain fun s => s.cnt.extractLsb' 0 32
  | .chi => readPlain fun s => s.cnt.extractLsb' 32 32
  | .cs => csRead
  | .fifo => fifoRead
  | .clk => clkRead
  | .enb => enbRead
  | .cntl0 => cntl0Read
  | .cntl1 => cntl1Read
  | .stat => statRead
  | .io | .txhold => auxReceive

/-- The write rule of a register. -/
def writeRule (v : Word) : Reg → State → Out
  | .gpfsel n => gpfselWrite n v
  | .gpset n => gpsetWrite n v
  | .gpclr n => gpclrWrite n v
  | .gplev _ => ignoredWrite
  | .gpeds n => gpedsWrite n v
  | .gpren n => gprenWrite n v
  | .gpfen n => gpfenWrite n v
  | .gphen n => gphenWrite n v
  | .gplen n => gplenWrite n v
  | .gparen n => gparenWrite n v
  | .gpafen n => gpafenWrite n v
  | .gppud => gppudWrite v
  | .gppudclk n => gppudclkWrite n v
  | .gppuppdn n => gppuppdnWrite n v
  | .pads g => padsWrite g v
  | .clo | .chi => timerWrite
  | .cs => csWrite v
  | .fifo => fifoWrite v
  | .clk => clkWrite v
  | .enb => enbWrite v
  | .cntl0 => cntl0Write v
  | .cntl1 => cntl1Write v
  | .stat => statWrite
  | .io => auxPush false v
  | .txhold => auxPush true v

/-- The check that a register exists in the generation at hand, before everything else (R168, R347). -/
def guarded (o : Option PudVariant) (m : State → Out) (s : State) : Out :=
  match o with
  | none => m s
  | some v => onlyIn v m s

/-- Every read transaction is the generic one over its read rule (R130). -/
theorem exec_rd (nb : Bool) (r : Reg) (s : State) :
    exec (Instr.rd nb r) s = guarded (variantOf r) (busRead r.block nb (readRule r)) s := by
  cases r with
  | gpfsel n => revert n; intro ⟨n, h⟩; match n, h with | 0, _ | 1, _ | 2, _ | 3, _ | 4, _ | 5, _ => rfl
  | gpset n | gpclr n | gplev n | gpeds n | gpren n | gpfen n | gphen n | gplen n | gparen n | gpafen n | gppudclk n =>
    revert n; intro ⟨n, h⟩; match n, h with | 0, _ | 1, _ => rfl
  | gppuppdn n => revert n; intro ⟨n, h⟩; match n, h with | 0, _ | 1, _ | 2, _ | 3, _ => rfl
  | pads n => revert n; intro ⟨n, h⟩; match n, h with | 0, _ | 1, _ | 2, _ => rfl
  | _ => rfl

/-- Every write transaction is the generic one over its write rule (R131). -/
theorem exec_wr (nb : Bool) (v : Word) (r : Reg) (s : State) :
    exec (Instr.wr nb v r) s = guarded (variantOf r) (busWrite r.block nb (writeRule v r)) s := by
  cases r with
  | gpfsel n => revert n; intro ⟨n, h⟩; match n, h with | 0, _ | 1, _ | 2, _ | 3, _ | 4, _ | 5, _ => rfl
  | gpset n | gpclr n | gplev n | gpeds n | gpren n | gpfen n | gphen n | gplen n | gparen n | gpafen n | gppudclk n =>
    revert n; intro ⟨n, h⟩; match n, h with | 0, _ | 1, _ => rfl
  | gppuppdn n => revert n; intro ⟨n, h⟩; match n, h with | 0, _ | 1, _ | 2, _ | 3, _ => rfl
  | pads n => revert n; intro ⟨n, h⟩; match n, h with | 0, _ | 1, _ | 2, _ => rfl
  | _ => rfl

/-- Every instruction is the read or the write of its register. -/
theorem instr_cases (i : Instr) :
    (i = Instr.rd i.nb i.reg ∧ i.isWrite = false ∧ i.data = 0) ∨ (i = Instr.wr i.nb i.data i.reg ∧ i.isWrite = true) := by
  cases i <;> first | exact .inl ⟨rfl, rfl, rfl⟩ | exact .inr ⟨rfl, rfl⟩

/-- What `Instr.rd` names. -/
theorem rd_fields (nb : Bool) (r : Reg) :
    (Instr.rd nb r).nb = nb ∧ (Instr.rd nb r).reg = r ∧ (Instr.rd nb r).isWrite = false ∧ (Instr.rd nb r).data = 0 := by
  cases r with
  | gpfsel n => revert n; intro ⟨n, h⟩; match n, h with | 0, _ | 1, _ | 2, _ | 3, _ | 4, _ | 5, _ => exact ⟨rfl, rfl, rfl, rfl⟩
  | gpset n | gpclr n | gplev n | gpeds n | gpren n | gpfen n | gphen n | gplen n | gparen n | gpafen n | gppudclk n =>
    revert n; intro ⟨n, h⟩; match n, h with | 0, _ | 1, _ => exact ⟨rfl, rfl, rfl, rfl⟩
  | gppuppdn n => revert n; intro ⟨n, h⟩; match n, h with | 0, _ | 1, _ | 2, _ | 3, _ => exact ⟨rfl, rfl, rfl, rfl⟩
  | pads n => revert n; intro ⟨n, h⟩; match n, h with | 0, _ | 1, _ | 2, _ => exact ⟨rfl, rfl, rfl, rfl⟩
  | _ => exact ⟨rfl, rfl, rfl, rfl⟩

/-- What `Instr.wr` names. -/
theorem wr_fields (nb : Bool) (v : Word) (r : Reg) :
    (Instr.wr nb v r).nb = nb ∧ (Instr.wr nb v r).reg = r ∧ (Instr.wr nb v r).isWrite = true ∧ (Instr.wr nb v r).data = v := by
  cases r with
  | gpfsel n => revert n; intro ⟨n, h⟩; match n, h with | 0, _ | 1, _ | 2, _ | 3, _ | 4, _ | 5, _ => exact ⟨rfl, rfl, rfl, rfl⟩
  | gpset n | gpclr n | gplev n | gpeds n | gpren n | gpfen n | gphen n | gplen n | gparen n | gpafen n | gppudclk n =>
    revert n; intro ⟨n, h⟩; match n, h with | 0, _ | 1, _ => exact ⟨rfl, rfl, rfl, rfl⟩
  | gppuppdn n => revert n; intro ⟨n, h⟩; match n, h with | 0, _ | 1, _ | 2, _ | 3, _ => exact ⟨rfl, rfl, rfl, rfl⟩
  | pads n => revert n; intro ⟨n, h⟩; match n, h with | 0, _ | 1, _ | 2, _ => exact ⟨rfl, rfl, rfl, rfl⟩
  | _ => exact ⟨rfl, rfl, rfl, rfl⟩

/-- An instruction is well formed in a generation exactly when its register exists in it. -/
theorem wf_iff (i : Instr) (v : PudVariant) : i.wf v = true ↔ variantOf i.reg = none ∨ variantOf i.reg = some v := by
  cases i <;> cases v <;> first | exact ⟨fun _ => .inl rfl, fun _ => rfl⟩ | exact ⟨fun _ => .inr rfl, fun _ => rfl⟩ | exact ⟨nofun, fun h => h.elim nofun nofun⟩

end Sys2Proof.Machine
end

