-- ==== Sys2Proof/Laws/Decode.lean ====
section
/-! SUPPORT. The fields of a packed word (R101), the two directions of the address map (R103), and what the decoder
answers on a word whose address is known. -/

namespace Sys2Proof

/-! ### Packed words -/

@[simp] theorem TWord.isWrite_pack (w nb : Bool) (a : BitVec 24) (d : Word) : (TWord.pack w nb a d).isWrite = w := by
  simp only [TWord.pack, TWord.isWrite, BitVec.getLsbD_cons, if_true]

@[simp] theorem TWord.nb_pack (w nb : Bool) (a : BitVec 24) (d : Word) : (TWord.pack w nb a d).nb = nb := by
  simp only [TWord.pack, TWord.nb, BitVec.getLsbD_cons, show ¬ 62 = 63 by decide, if_true, if_false]

/-- The low 62 bits of a packed word. -/
theorem TWord.pack_low (w nb : Bool) (a : BitVec 24) (d : Word) (i : Nat) (h : i < 62) :
    (TWord.pack w nb a d).getLsbD i = if i < 32 then d.getLsbD i else if i < 56 then a.getLsbD (i - 32) else false := by
  simp only [TWord.pack, BitVec.getLsbD_cons, BitVec.getLsbD_append, show ¬ i = 63 by omega, show ¬ i = 62 by omega,
    if_false]
  by_cases h1 : i < 32
  · simp only [h1, if_true]
  · by_cases h2 : i < 56
    · simp only [h1, h2, show i - 32 < 24 by omega, if_true, if_false]
    · simp only [h1, h2, show ¬ i - 32 < 24 by omega, if_false, BitVec.getLsbD_zero]

@[simp] theorem TWord.zero_pack (w nb : Bool) (a : BitVec 24) (d : Word) : (TWord.pack w nb a d).zero = 0 := by
  apply BitVec.eq_of_getLsbD_eq
  intro i hi
  rw [TWord.zero, BitVec.getLsbD_extractLsb', TWord.pack_low _ _ _ _ _ (by omega)]
  simp [show ¬ 56 + i < 32 by omega]

@[simp] theorem TWord.addr_pack (w nb : Bool) (a : BitVec 24) (d : Word) : (TWord.pack w nb a d).addr = a := by
  apply BitVec.eq_of_getLsbD_eq
  intro i hi
  rw [TWord.addr, BitVec.getLsbD_extractLsb', TWord.pack_low _ _ _ _ _ (by omega)]
  simp [hi, show 32 + i < 56 by omega]

@[simp] theorem TWord.data_pack (w nb : Bool) (a : BitVec 24) (d : Word) : (TWord.pack w nb a d).data = d := by
  apply BitVec.eq_of_getLsbD_eq
  intro i hi
  rw [TWord.data, BitVec.getLsbD_extractLsb', TWord.pack_low _ _ _ _ _ (by omega)]
  simp [hi]

/-- A word is its five fields. -/
theorem TWord.eq_of_fields {a b : TWord} (hw : a.isWrite = b.isWrite) (hn : a.nb = b.nb) (hz : a.zero = b.zero)
    (ha : a.addr = b.addr) (hd : a.data = b.data) : a = b := by
  apply BitVec.eq_of_getLsbD_eq
  intro i hi
  have field : ∀ {n : Nat} {x y : BitVec n}, x = y → ∀ j, x.getLsbD j = y.getLsbD j := fun h _ => by rw [h]
  by_cases h1 : i < 32
  · have := field hd i
    simpa only [TWord.data, BitVec.getLsbD_extractLsb', h1, Nat.zero_add, decide_true, Bool.true_and] using this
  · by_cases h2 : i < 56
    · have := field ha (i - 32)
      simpa only [TWord.addr, BitVec.getLsbD_extractLsb', show i - 32 < 24 by omega, show 32 + (i - 32) = i by omega,
        decide_true, Bool.true_and] using this
    · by_cases h3 : i < 62
      · have := field hz (i - 56)
        simpa only [TWord.zero, BitVec.getLsbD_extractLsb', show i - 56 < 6 by omega, show 56 + (i - 56) = i by omega,
          decide_true, Bool.true_and] using this
      · obtain rfl | rfl : i = 62 ∨ i = 63 := by omega
        · exact hn
        · exact hw

/-! ### The address map -/

theorem Reg.mem_all (r : Reg) : r ∈ Reg.all := by
  cases r with
  | gpfsel n | gpset n | gpclr n | gplev n | gpeds n | gpren n | gpfen n | gphen n | gplen n | gparen n | gpafen n
  | gppudclk n | gppuppdn n | pads n => revert n; decide
  | _ => decide

/-- What a well-formed address map gives: distinct, aligned addresses that fit the field. -/
theorem AddrMap.wf_iff {m : AddrMap} : m.wf = true ↔
    (Reg.all.map m.addr).Nodup ∧ ∀ r ∈ Reg.all, m.addr r % 4 = 0 ∧ m.addr r < 2 ^ 24 := by
  simp only [AddrMap.wf, Bool.and_eq_true, decide_eq_true_eq, List.all_eq_true, beq_iff_eq]

/-- No two registers share an address (R76). -/
theorem AddrMap.addr_injective {m : AddrMap} (hm : m.wf = true) {q r : Reg} (h : m.addr q = m.addr r) : q = r :=
  List.inj_on_of_nodup_map (AddrMap.wf_iff.mp hm).1 q.mem_all r.mem_all h

/-- Every register address is aligned and fits the field (R101). -/
theorem AddrMap.addr_bounds {m : AddrMap} (hm : m.wf = true) (r : Reg) : m.addr r % 4 = 0 ∧ m.addr r < 2 ^ 24 :=
  (AddrMap.wf_iff.mp hm).2 r r.mem_all

/-- The address map read backwards finds a register at that address. -/
theorem AddrMap.addr_of_regAt {m : AddrMap} {a : Nat} {r : Reg} (h : m.regAt a = some r) : m.addr r = a := by
  simpa using List.find?_some h

/-- The address map read backwards. -/
theorem AddrMap.regAt_eq_some {m : AddrMap} (hm : m.wf = true) {a : Nat} {r : Reg} : m.regAt a = some r ↔ m.addr r = a := by
  refine ⟨AddrMap.addr_of_regAt, ?_⟩
  rintro rfl
  obtain ⟨q, hq⟩ : ∃ q, m.regAt (m.addr r) = some q := by
    rw [← Option.isSome_iff_exists, AddrMap.regAt, List.find?_isSome]
    exact ⟨r, r.mem_all, by simp⟩
  rw [hq, AddrMap.addr_injective hm (AddrMap.addr_of_regAt hq)]

theorem AddrMap.regAt_eq_none {m : AddrMap} {a : Nat} : m.regAt a = none ↔ ∀ r : Reg, m.addr r ≠ a := by
  simp only [AddrMap.regAt, List.find?_eq_none, beq_iff_eq]
  exact ⟨fun h r => h r r.mem_all, fun h r _ => h r⟩

/-! ### The decoder -/

/-- What the decoder answers on a word in canonical form at a register's address. -/
theorem decode_at {m : AddrMap} (hm : m.wf = true) {w : TWord} {r : Reg} (hz : w.zero = 0)
    (hd : w.isWrite = false → w.data = 0) (ha : w.addr.toNat = m.addr r) :
    decode m w = .ok (if w.isWrite then Instr.wr w.nb w.data r else Instr.rd w.nb r) := by
  rw [decode, if_neg, if_neg]
  · rw [(AddrMap.regAt_eq_some hm).mpr ha.symm]
  · rw [ha, (AddrMap.addr_bounds hm r).1]; decide
  · rintro (h | ⟨h, k⟩)
    · exact h hz
    · exact k (hd h)

/-- The address field of an encoded instruction. -/
theorem encode_addr {m : AddrMap} (hm : m.wf = true) (i : Instr) : (encode m i).addr.toNat = m.addr i.reg := by
  rw [encode, TWord.addr_pack, BitVec.toNat_ofNat, Nat.mod_eq_of_lt (AddrMap.addr_bounds hm i.reg).2]

end Sys2Proof
end

