-- ==== Sys2Proof/Laws/Ops.lean ====
section
/-! SUPPORT. One lemma per shared operation that says once all it can do: the generic transactions (R130, R131), the
asynchronous detectors (R176), the Legacy pull latch and `settle()` (R181). Proofs about instructions cite these and do
not unfold the operations. -/

namespace Sys2Proof.Machine

/-! ### Generic transactions -/

theorem admits_variant {s : State} {r : Reg} (h : s.Admits r) :
    variantOf r = none ∨ variantOf r = some s.params.variant := by
  have := (wf_iff _ _).mp h.exists_
  rwa [(rd_fields false r).2.1] at this

theorem guarded_of_variant {o : Option PudVariant} {m : State → Out} {s : State}
    (h : o = none ∨ o = some s.params.variant) : guarded o m s = m s := by
  obtain rfl | rfl := h
  · rfl
  · simp [guarded, onlyIn]

theorem transact_of_order {b : Block} {nb : Bool} {f : State → Out} {s : State}
    (h : s.lastNb = none ∨ s.lastNb = some b) : transact b nb f s = gated b nb f s := by
  obtain h | h := h <;> simp [transact, h]

theorem gated_of_gate {b : Block} {nb : Bool} {f : State → Out} {s : State}
    (h : b = .spi1 → s.aux.enb = true) : gated b nb f s = mapNext (fun t => t.withLastNb (lastNbAfter b nb)) (f s) := by
  have : s.gateOk b = true := by
    by_cases e : b = .spi1
    · simp [State.gateOk, h e]
    · simp [State.gateOk, e]
  simp [gated, this]

/-- A read transaction that is admitted completes with what its read rule gives. -/
theorem exec_rd_of_admits {s : State} {r : Reg} (nb : Bool) (h : s.Admits r) :
    exec (Instr.rd nb r) s =
      .next (((readRule r s).2.withResult (some (readRule r s).1)).withLastNb (lastNbAfter r.block nb)) := by
  rw [exec_rd, guarded_of_variant (admits_variant h), busRead, transact_of_order h.order, gated_of_gate h.gate]
  rfl

/-- A write transaction that is admitted ends as its write rule says. -/
theorem exec_wr_of_admits {s : State} {r : Reg} (nb : Bool) (v : Word) (h : s.Admits r) :
    exec (Instr.wr nb v r) s =
      mapNext (fun t => (t.withResult none).withLastNb (lastNbAfter r.block nb)) (writeRule v r s) := by
  rw [exec_wr, guarded_of_variant (admits_variant h), busWrite, transact_of_order h.order, gated_of_gate h.gate]
  cases writeRule v r s <;> rfl

/-- A transaction that completes was admitted. -/
theorem transact_next {b : Block} {nb : Bool} {f : State → Out} {s t : State} (h : transact b nb f s = .next t) :
    (s.lastNb = none ∨ s.lastNb = some b) ∧ (b = .spi1 → s.aux.enb = true)
      ∧ ∃ u, f s = .next u ∧ t = u.withLastNb (lastNbAfter b nb) := by
  have order : s.lastNb = none ∨ s.lastNb = some b := by
    unfold transact at h
    split at h
    · exact .inl ‹_›
    · split at h
      · subst_vars; exact .inr ‹_›
      · simp at h
  rw [transact_of_order order, gated] at h
  split at h
  · rename_i g
    refine ⟨order, ?_, (mapNext_eq_next _ _ _).mp h⟩
    rintro rfl
    simpa [State.gateOk] using g
  · simp at h

theorem guarded_next {o : Option PudVariant} {m : State → Out} {s t : State} (h : guarded o m s = .next t) :
    (o = none ∨ o = some s.params.variant) ∧ m s = .next t := by
  cases o with
  | none => exact ⟨.inl rfl, h⟩
  | some v =>
    simp only [guarded, onlyIn] at h
    split at h
    · exact ⟨.inr (by simp [*]), h⟩
    · simp at h

theorem admits_of {s : State} {r : Reg} (hv : variantOf r = none ∨ variantOf r = some s.params.variant)
    (ho : s.lastNb = none ∨ s.lastNb = some r.block) (hg : r.block = .spi1 → s.aux.enb = true) : s.Admits r :=
  ⟨(wf_iff _ _).mpr (by rwa [(rd_fields false r).2.1]), ho, hg⟩

/-- A read transaction that completes was admitted, and did what its read rule says. -/
theorem exec_rd_next {s t : State} {r : Reg} {nb : Bool} (h : exec (Instr.rd nb r) s = .next t) :
    s.Admits r
      ∧ t = ((readRule r s).2.withResult (some (readRule r s).1)).withLastNb (lastNbAfter r.block nb) := by
  have h' := h
  rw [exec_rd] at h'
  obtain ⟨hv, h'⟩ := guarded_next h'
  obtain ⟨ho, hg, -⟩ := transact_next h'
  have ha := admits_of hv ho hg
  rw [exec_rd_of_admits nb ha] at h
  exact ⟨ha, by simpa using h.symm⟩

/-- A write transaction that completes was admitted, and did what its write rule says. -/
theorem exec_wr_next {s t : State} {r : Reg} {nb : Bool} {v : Word} (h : exec (Instr.wr nb v r) s = .next t) :
    s.Admits r ∧ ∃ u, writeRule v r s = .next u ∧ t = (u.withResult none).withLastNb (lastNbAfter r.block nb) := by
  have h' := h
  rw [exec_wr] at h'
  obtain ⟨hv, h'⟩ := guarded_next h'
  obtain ⟨ho, hg, -⟩ := transact_next h'
  have ha := admits_of hv ho hg
  rw [exec_wr_of_admits nb v ha, mapNext_eq_next] at h
  exact ⟨ha, h⟩

/-! ### Levels -/

/-- A pin's level is decided by its function, its latch, the outside and its pull. -/
theorem level_congr {s t : State} {p : Pin} (hf : t.gpio.fsel.get p = s.gpio.fsel.get p)
    (ho : t.gpio.out.getLsbD p = s.gpio.out.getLsbD p) (he : t.env.ext.get p = s.env.ext.get p)
    (hp : t.pullState p = s.pullState p) : t.level p = s.level p := by
  unfold State.level
  rw [hf, ho, he, hp]

/-- A pin's pull is decided by the variant and its stored pull. -/
theorem pullState_congr {s t : State} {p : Pin} (hv : t.params.variant = s.params.variant)
    (hl : t.gpio.pull.get p = s.gpio.pull.get p) (hm : t.gpio.puppdn.get p = s.gpio.puppdn.get p) :
    t.pullState p = s.pullState p := by
  unfold State.pullState
  rw [hv, hl, hm]

/-- A determined level is what an evaluation of all levels gives. -/
theorem levels_getLsbD (s : State) (d : PinBits) (p : Pin) :
    (s.levels d).getLsbD p = match s.level p with | .low => false | .high => true | .free => d.getLsbD p :=
  packPins_getLsbD _ p

/-! ### Asynchronous detection (R176) -/

@[simp] theorem asyncDetect_params (touched : Pin → Bool) (old new : State) : (asyncDetect touched old new).params = new.params := (rfl)
@[simp] theorem asyncDetect_pads (touched : Pin → Bool) (old new : State) : (asyncDetect touched old new).pads = new.pads := (rfl)
@[simp] theorem asyncDetect_cnt (touched : Pin → Bool) (old new : State) : (asyncDetect touched old new).cnt = new.cnt := (rfl)
@[simp] theorem asyncDetect_spi0 (touched : Pin → Bool) (old new : State) : (asyncDetect touched old new).spi0 = new.spi0 := (rfl)
@[simp] theorem asyncDetect_aux (touched : Pin → Bool) (old new : State) : (asyncDetect touched old new).aux = new.aux := (rfl)
@[simp] theorem asyncDetect_spi1 (touched : Pin → Bool) (old new : State) : (asyncDetect touched old new).spi1 = new.spi1 := (rfl)
@[simp] theorem asyncDetect_env (touched : Pin → Bool) (old new : State) : (asyncDetect touched old new).env = new.env := (rfl)
@[simp] theorem asyncDetect_hist (touched : Pin → Bool) (old new : State) : (asyncDetect touched old new).hist = new.hist := (rfl)
@[simp] theorem asyncDetect_lastNb (touched : Pin → Bool) (old new : State) : (asyncDetect touched old new).lastNb = new.lastNb := (rfl)
@[simp] theorem asyncDetect_result (touched : Pin → Bool) (old new : State) : (asyncDetect touched old new).result = new.result := (rfl)
@[simp] theorem asyncDetect_host (touched : Pin → Bool) (old new : State) : (asyncDetect touched old new).host = new.host := (rfl)
@[simp] theorem asyncDetect_agenda (touched : Pin → Bool) (old new : State) : (asyncDetect touched old new).agenda = new.agenda := (rfl)
@[simp] theorem asyncDetect_fsel (touched : Pin → Bool) (old new : State) : (asyncDetect touched old new).gpio.fsel = new.gpio.fsel := (rfl)
@[simp] theorem asyncDetect_out (touched : Pin → Bool) (old new : State) : (asyncDetect touched old new).gpio.out = new.gpio.out := (rfl)
@[simp] theorem asyncDetect_ren (touched : Pin → Bool) (old new : State) : (asyncDetect touched old new).gpio.ren = new.gpio.ren := (rfl)
@[simp] theorem asyncDetect_fen (touched : Pin → Bool) (old new : State) : (asyncDetect touched old new).gpio.fen = new.gpio.fen := (rfl)
@[simp] theorem asyncDetect_hen (touched : Pin → Bool) (old new : State) : (asyncDetect touched old new).gpio.hen = new.gpio.hen := (rfl)
@[simp] theorem asyncDetect_len (touched : Pin → Bool) (old new : State) : (asyncDetect touched old new).gpio.len = new.gpio.len := (rfl)
@[simp] theorem asyncDetect_aren (touched : Pin → Bool) (old new : State) : (asyncDetect touched old new).gpio.aren = new.gpio.aren := (rfl)
@[simp] theorem asyncDetect_afen (touched : Pin → Bool) (old new : State) : (asyncDetect touched old new).gpio.afen = new.gpio.afen := (rfl)
@[simp] theorem asyncDetect_prev (touched : Pin → Bool) (old new : State) : (asyncDetect touched old new).gpio.prev = new.gpio.prev := (rfl)
@[simp] theorem asyncDetect_pud (touched : Pin → Bool) (old new : State) : (asyncDetect touched old new).gpio.pud = new.gpio.pud := (rfl)
@[simp] theorem asyncDetect_pudclk (touched : Pin → Bool) (old new : State) : (asyncDetect touched old new).gpio.pudclk = new.gpio.pudclk := (rfl)
@[simp] theorem asyncDetect_pull (touched : Pin → Bool) (old new : State) : (asyncDetect touched old new).gpio.pull = new.gpio.pull := (rfl)
@[simp] theorem asyncDetect_puppdn (touched : Pin → Bool) (old new : State) : (asyncDetect touched old new).gpio.puppdn = new.gpio.puppdn := (rfl)
@[simp] theorem asyncDetect_arm (touched : Pin → Bool) (old new : State) : (asyncDetect touched old new).gpio.arm = new.gpio.arm := (rfl)
@[simp] theorem asyncDetect_pudT (touched : Pin → Bool) (old new : State) : (asyncDetect touched old new).gpio.pudT = new.gpio.pudT := (rfl)
@[simp] theorem asyncDetect_pudSeen (touched : Pin → Bool) (old new : State) : (asyncDetect touched old new).gpio.pudSeen = new.gpio.pudSeen := (rfl)
@[simp] theorem asyncDetect_draws (touched : Pin → Bool) (old new : State) : (asyncDetect touched old new).draws = new.draws + 1 := (rfl)

/-- The event status of each pin after the detectors. -/
theorem asyncDetect_eds (touched : Pin → Bool) (old new : State) (p : Pin) :
    (asyncDetect touched old new).gpio.eds.getLsbD p = (new.gpio.eds.getLsbD p ||
      (touched p && asyncFires (new.gpio.aren.getLsbD p) (new.gpio.afen.getLsbD p) (new.freePins.getLsbD p)
        (old.level p) (new.level p))) := by
  simp only [asyncDetect, State.drawn_gpio, State.withGpio_gpio, packPins_getLsbD]

@[simp] theorem asyncDetect_level (touched : Pin → Bool) (old new : State) (p : Pin) :
    (asyncDetect touched old new).level p = new.level p := (rfl)

/-- If every pin whose level changes is watched, the detectors do what R176 says. -/
theorem asyncDetect_spec {touched : Pin → Bool} {old new t : State} {p : Pin}
    (hw : touched p = false → old.level p = new.level p)
    (hl : t.level p = new.level p) (hg : t.gpio.eds = (asyncDetect touched old new).gpio.eds)
    (ha : t.gpio.aren = new.gpio.aren) (hb : t.gpio.afen = new.gpio.afen) :
    AsyncDetected old t new.gpio.eds p := by
  unfold AsyncDetected
  rw [hl, hg, ha, hb, asyncDetect_eds]
  cases ht : touched p with
  | false => rw [hw ht]; cases new.level p <;> simp
  | true => cases old.level p <;> cases new.level p <;> simp [asyncFires] <;> intro h <;> simp [h]

/-- `asyncDetect_spec` for the detectors' own result. -/
theorem asyncDetect_detected {touched : Pin → Bool} {old new : State} {p : Pin}
    (hw : touched p = false → old.level p = new.level p) :
    AsyncDetected old (asyncDetect touched old new) new.gpio.eds p :=
  asyncDetect_spec hw (asyncDetect_level _ _ _ _) rfl (asyncDetect_aren _ _ _) (asyncDetect_afen _ _ _)

/-- What a transaction adds around its rule is nothing to the detectors. -/
theorem AsyncDetected.wrapped {s u : State} {e : PinBits} {p : Pin} (h : AsyncDetected s u e p) (r : Option Word)
    (b : Option Block) : AsyncDetected s ((u.withResult r).withLastNb b) e p := h

/-! ### The pull latch (R181) -/

@[simp] theorem latchEffect_params (which : Pin → Bool) (s : State) : (latchEffect which s).params = s.params := by
  simp only [latchEffect, State.drawn_params, State.withGpio_params]
@[simp] theorem latchEffect_pads (which : Pin → Bool) (s : State) : (latchEffect which s).pads = s.pads := by
  simp only [latchEffect, State.drawn_pads, State.withGpio_pads]
@[simp] theorem latchEffect_cnt (which : Pin → Bool) (s : State) : (latchEffect which s).cnt = s.cnt := by
  simp only [latchEffect, State.drawn_cnt, State.withGpio_cnt]
@[simp] theorem latchEffect_spi0 (which : Pin → Bool) (s : State) : (latchEffect which s).spi0 = s.spi0 := by
  simp only [latchEffect, State.drawn_spi0, State.withGpio_spi0]
@[simp] theorem latchEffect_aux (which : Pin → Bool) (s : State) : (latchEffect which s).aux = s.aux := by
  simp only [latchEffect, State.drawn_aux, State.withGpio_aux]
@[simp] theorem latchEffect_spi1 (which : Pin → Bool) (s : State) : (latchEffect which s).spi1 = s.spi1 := by
  simp only [latchEffect, State.drawn_spi1, State.withGpio_spi1]
@[simp] theorem latchEffect_env (which : Pin → Bool) (s : State) : (latchEffect which s).env = s.env := by
  simp only [latchEffect, State.drawn_env, State.withGpio_env]
@[simp] theorem latchEffect_hist (which : Pin → Bool) (s : State) : (latchEffect which s).hist = s.hist := by
  simp only [latchEffect, State.drawn_hist, State.withGpio_hist]
@[simp] theorem latchEffect_lastNb (which : Pin → Bool) (s : State) : (latchEffect which s).lastNb = s.lastNb := by
  simp only [latchEffect, State.drawn_lastNb, State.withGpio_lastNb]
@[simp] theorem latchEffect_result (which : Pin → Bool) (s : State) : (latchEffect which s).result = s.result := by
  simp only [latchEffect, State.drawn_result, State.withGpio_result]
@[simp] theorem latchEffect_host (which : Pin → Bool) (s : State) : (latchEffect which s).host = s.host := by
  simp only [latchEffect, State.drawn_host, State.withGpio_host]
@[simp] theorem latchEffect_agenda (which : Pin → Bool) (s : State) : (latchEffect which s).agenda = s.agenda := by
  simp only [latchEffect, State.drawn_agenda, State.withGpio_agenda]
@[simp] theorem latchEffect_fsel (which : Pin → Bool) (s : State) : (latchEffect which s).gpio.fsel = s.gpio.fsel := by
  simp only [latchEffect, State.drawn_gpio, State.withGpio_gpio]
@[simp] theorem latchEffect_out (which : Pin → Bool) (s : State) : (latchEffect which s).gpio.out = s.gpio.out := by
  simp only [latchEffect, State.drawn_gpio, State.withGpio_gpio]
@[simp] theorem latchEffect_ren (which : Pin → Bool) (s : State) : (latchEffect which s).gpio.ren = s.gpio.ren := by
  simp only [latchEffect, State.drawn_gpio, State.withGpio_gpio]
@[simp] theorem latchEffect_fen (which : Pin → Bool) (s : State) : (latchEffect which s).gpio.fen = s.gpio.fen := by
  simp only [latchEffect, State.drawn_gpio, State.withGpio_gpio]
@[simp] theorem latchEffect_hen (which : Pin → Bool) (s : State) : (latchEffect which s).gpio.hen = s.gpio.hen := by
  simp only [latchEffect, State.drawn_gpio, State.withGpio_gpio]
@[simp] theorem latchEffect_len (which : Pin → Bool) (s : State) : (latchEffect which s).gpio.len = s.gpio.len := by
  simp only [latchEffect, State.drawn_gpio, State.withGpio_gpio]
@[simp] theorem latchEffect_aren (which : Pin → Bool) (s : State) : (latchEffect which s).gpio.aren = s.gpio.aren := by
  simp only [latchEffect, State.drawn_gpio, State.withGpio_gpio]
@[simp] theorem latchEffect_afen (which : Pin → Bool) (s : State) : (latchEffect which s).gpio.afen = s.gpio.afen := by
  simp only [latchEffect, State.drawn_gpio, State.withGpio_gpio]
@[simp] theorem latchEffect_prev (which : Pin → Bool) (s : State) : (latchEffect which s).gpio.prev = s.gpio.prev := by
  simp only [latchEffect, State.drawn_gpio, State.withGpio_gpio]
@[simp] theorem latchEffect_pud (which : Pin → Bool) (s : State) : (latchEffect which s).gpio.pud = s.gpio.pud := by
  simp only [latchEffect, State.drawn_gpio, State.withGpio_gpio]
@[simp] theorem latchEffect_pudclk (which : Pin → Bool) (s : State) : (latchEffect which s).gpio.pudclk = s.gpio.pudclk := by
  simp only [latchEffect, State.drawn_gpio, State.withGpio_gpio]
@[simp] theorem latchEffect_puppdn (which : Pin → Bool) (s : State) : (latchEffect which s).gpio.puppdn = s.gpio.puppdn := by
  simp only [latchEffect, State.drawn_gpio, State.withGpio_gpio]
@[simp] theorem latchEffect_pudT (which : Pin → Bool) (s : State) : (latchEffect which s).gpio.pudT = s.gpio.pudT := by
  simp only [latchEffect, State.drawn_gpio, State.withGpio_gpio]
@[simp] theorem latchEffect_pudSeen (which : Pin → Bool) (s : State) : (latchEffect which s).gpio.pudSeen = s.gpio.pudSeen := by
  simp only [latchEffect, State.drawn_gpio, State.withGpio_gpio]
@[simp] theorem latchEffect_eds (which : Pin → Bool) (s : State) : (latchEffect which s).gpio.eds = s.gpio.eds := by
  simp only [latchEffect, State.drawn_gpio, State.withGpio_gpio]
@[simp] theorem latchEffect_draws (which : Pin → Bool) (s : State) : (latchEffect which s).draws = s.draws + 1 := by
  simp only [latchEffect, State.drawn_draws, State.withGpio_draws]

theorem latchEffect_arm (which : Pin → Bool) (s : State) (p : Pin) :
    (latchEffect which s).gpio.arm.get p = if which p && s.latchDue p then .latched else s.gpio.arm.get p := by
  simp only [latchEffect, State.drawn_gpio, State.withGpio_gpio, pinVector_get]

theorem latchEffect_pull (which : Pin → Bool) (s : State) (p : Pin) :
    (latchEffect which s).gpio.pull.get p = if which p && s.latchDue p then s.latchedPull p else s.gpio.pull.get p := by
  simp only [latchEffect, State.drawn_gpio, State.withGpio_gpio, pinVector_get]

/-- When a latch is due. -/
theorem latchDue_iff (s : State) (p : Pin) :
    s.latchDue p = true ↔ s.params.variant = .legacy ∧ s.gpio.pudclk.getLsbD p = true
      ∧ ∃ m i ok, s.gpio.arm.get p = .armed m i ok ∧ s.params.tPudTicks ≤ (s.cnt - i).toNat := by
  unfold State.latchDue
  split
  · rename_i h1 h2
    simp only [h1, h2, Bool.and_eq_true, decide_eq_true_eq, true_and]
    constructor
    · rintro ⟨a, b⟩; exact ⟨a, _, _, _, rfl, b⟩
    · rintro ⟨a, m, i, ok, e, b⟩; cases e; exact ⟨a, b⟩
  · rename_i h
    simp only [Bool.false_eq_true, false_iff]
    rintro ⟨h1, -, m, i, ok, h2, -⟩
    exact h m i ok h1 h2

/-- All that a set of latches can change: event status, pulls and arming records. -/
theorem latchPins_eq (which : Pin → Bool) (s : State) :
    latchPins which s = { s with
      gpio := { s.gpio with
        eds := (latchPins which s).gpio.eds, pull := (latchPins which s).gpio.pull, arm := (latchPins which s).gpio.arm }
      draws := s.draws + 2 } := by
  unfold latchPins
  apply State.ext <;> try simp only [asyncDetect_params, asyncDetect_pads, asyncDetect_cnt, asyncDetect_spi0,
    asyncDetect_aux, asyncDetect_spi1, asyncDetect_env, asyncDetect_hist, asyncDetect_lastNb, asyncDetect_result,
    asyncDetect_host, asyncDetect_agenda, asyncDetect_draws, latchEffect_params, latchEffect_pads, latchEffect_cnt,
    latchEffect_spi0, latchEffect_aux, latchEffect_spi1, latchEffect_env, latchEffect_hist, latchEffect_lastNb,
    latchEffect_result, latchEffect_host, latchEffect_agenda, latchEffect_draws]
  apply Gpio.ext <;> simp

theorem latchPins_arm (which : Pin → Bool) (s : State) (p : Pin) :
    (latchPins which s).gpio.arm.get p = if which p && s.latchDue p then .latched else s.gpio.arm.get p := by
  rw [latchPins, asyncDetect_arm, latchEffect_arm]

theorem latchPins_pull (which : Pin → Bool) (s : State) (p : Pin) :
    (latchPins which s).gpio.pull.get p = if which p && s.latchDue p then s.latchedPull p else s.gpio.pull.get p := by
  rw [latchPins, asyncDetect_pull, latchEffect_pull]

/-- The pull a well-timed latch applies. -/
theorem latchedPull_ok {s : State} {p : Pin} {m : BitVec 2} {i : BitVec 64} {mode : Pull}
    (h : s.gpio.arm.get p = .armed m i true) (hm : s.params.pudCodes.decode m = some mode) : s.latchedPull p = mode := by
  simp [State.latchedPull, h, hm]

/-- The detectors see the changes a set of latches makes. -/
theorem latchPins_detected (which : Pin → Bool) (s : State) (p : Pin) :
    AsyncDetected s (latchPins which s) s.gpio.eds p := by
  have key := @asyncDetect_spec (fun p => which p && s.latchDue p && pullChanged s (latchEffect which s) p) s
    (latchEffect which s) _ p ?_ (asyncDetect_level _ _ _ _) rfl (asyncDetect_aren _ _ _) (asyncDetect_afen _ _ _)
  · rwa [latchEffect_eds] at key
  intro h
  refine (level_congr (by simp) (by simp) (by simp) ?_).symm
  cases hd : which p && s.latchDue p with
  | false => exact pullState_congr (by simp) (by simp [latchEffect_pull, hd]) (by simp)
  | true =>
    simp only [hd, Bool.true_and, pullChanged] at h
    split at h
    · rename_i a b ha hb
      rw [ha, hb, bne_eq_false_iff_eq.mp h]
    · cases h

/-- All that `settle()` can change. -/
theorem settle_eq (s : State) :
    settle s = { s with
      gpio := { s.gpio with eds := (settle s).gpio.eds, pull := (settle s).gpio.pull, arm := (settle s).gpio.arm }
      draws := s.draws + 2 } := latchPins_eq _ s

theorem settle_arm (s : State) (p : Pin) :
    (settle s).gpio.arm.get p = if s.latchDue p then .latched else s.gpio.arm.get p := by
  rw [settle, latchPins_arm, Bool.true_and]

theorem settle_pull (s : State) (p : Pin) :
    (settle s).gpio.pull.get p = if s.latchDue p then s.latchedPull p else s.gpio.pull.get p := by
  rw [settle, latchPins_pull, Bool.true_and]

@[simp] theorem settle_params (s : State) : (settle s).params = s.params := by rw [settle_eq]
@[simp] theorem settle_pads (s : State) : (settle s).pads = s.pads := by rw [settle_eq]
@[simp] theorem settle_cnt (s : State) : (settle s).cnt = s.cnt := by rw [settle_eq]
@[simp] theorem settle_spi0 (s : State) : (settle s).spi0 = s.spi0 := by rw [settle_eq]
@[simp] theorem settle_aux (s : State) : (settle s).aux = s.aux := by rw [settle_eq]
@[simp] theorem settle_spi1 (s : State) : (settle s).spi1 = s.spi1 := by rw [settle_eq]
@[simp] theorem settle_env (s : State) : (settle s).env = s.env := by rw [settle_eq]
@[simp] theorem settle_hist (s : State) : (settle s).hist = s.hist := by rw [settle_eq]
@[simp] theorem settle_lastNb (s : State) : (settle s).lastNb = s.lastNb := by rw [settle_eq]
@[simp] theorem settle_result (s : State) : (settle s).result = s.result := by rw [settle_eq]
@[simp] theorem settle_host (s : State) : (settle s).host = s.host := by rw [settle_eq]
@[simp] theorem settle_agenda (s : State) : (settle s).agenda = s.agenda := by rw [settle_eq]
@[simp] theorem settle_fsel (s : State) : (settle s).gpio.fsel = s.gpio.fsel := by rw [settle_eq]
@[simp] theorem settle_out (s : State) : (settle s).gpio.out = s.gpio.out := by rw [settle_eq]
@[simp] theorem settle_ren (s : State) : (settle s).gpio.ren = s.gpio.ren := by rw [settle_eq]
@[simp] theorem settle_fen (s : State) : (settle s).gpio.fen = s.gpio.fen := by rw [settle_eq]
@[simp] theorem settle_hen (s : State) : (settle s).gpio.hen = s.gpio.hen := by rw [settle_eq]
@[simp] theorem settle_len (s : State) : (settle s).gpio.len = s.gpio.len := by rw [settle_eq]
@[simp] theorem settle_aren (s : State) : (settle s).gpio.aren = s.gpio.aren := by rw [settle_eq]
@[simp] theorem settle_afen (s : State) : (settle s).gpio.afen = s.gpio.afen := by rw [settle_eq]
@[simp] theorem settle_prev (s : State) : (settle s).gpio.prev = s.gpio.prev := by rw [settle_eq]
@[simp] theorem settle_pud (s : State) : (settle s).gpio.pud = s.gpio.pud := by rw [settle_eq]
@[simp] theorem settle_pudclk (s : State) : (settle s).gpio.pudclk = s.gpio.pudclk := by rw [settle_eq]
@[simp] theorem settle_puppdn (s : State) : (settle s).gpio.puppdn = s.gpio.puppdn := by rw [settle_eq]
@[simp] theorem settle_pudT (s : State) : (settle s).gpio.pudT = s.gpio.pudT := by rw [settle_eq]
@[simp] theorem settle_pudSeen (s : State) : (settle s).gpio.pudSeen = s.gpio.pudSeen := by rw [settle_eq]
@[simp] theorem settle_draws (s : State) : (settle s).draws = s.draws + 2 := by rw [settle_eq]

/-- After `settle()` no latch is due. -/
theorem settle_latchDue (s : State) (p : Pin) : (settle s).latchDue p = false := by
  rw [Bool.eq_false_iff, ne_eq, latchDue_iff]
  rw [settle_params, settle_pudclk, settle_cnt]
  rintro ⟨hv, hc, m, i, ok, ha, ht⟩
  rw [settle_arm] at ha
  split at ha
  · cases ha
  · rename_i h
    exact h ((latchDue_iff s p).mpr ⟨hv, hc, m, i, ok, ha, ht⟩)

/-- With no latch due `settle()` changes no pull and no record. -/
theorem settle_idle {s : State} (h : ∀ p, s.latchDue p = false) :
    (settle s).gpio.arm = s.gpio.arm ∧ (settle s).gpio.pull = s.gpio.pull := by
  constructor <;> apply vector_ext_get <;> intro p
  · simp [settle_arm, h]
  · simp [settle_pull, h]

end Sys2Proof.Machine
end

