-- ==== Sys2Proof/Laws/Frames.lean ====
section
/-! SUPPORT. What the rule of a register can change: its own block, the value returned and the count of draws; and which
write rules can stop. -/

namespace Sys2Proof.Machine

/-- `t` differs from `s` in block `b` and the count of draws at most. -/
structure BlockFrame (b : Block) (s t : State) : Prop where
  params : t.params = s.params
  cnt : t.cnt = s.cnt
  env : t.env = s.env
  hist : t.hist = s.hist
  host : t.host = s.host
  agenda : t.agenda = s.agenda
  lastNb : t.lastNb = s.lastNb
  result : t.result = s.result
  gpio : b ≠ .gpio → t.gpio = s.gpio
  pads : b ≠ .pads → t.pads = s.pads
  spi0 : b ≠ .spi0 → t.spi0 = s.spi0
  aux : b ≠ .aux → t.aux = s.aux
  spi1 : b ≠ .spi1 → t.spi1 = s.spi1

theorem BlockFrame.refl (b : Block) (s : State) : BlockFrame b s s := by constructor <;> simp

theorem BlockFrame.drawn (b : Block) (s : State) : BlockFrame b s s.drawn := by constructor <;> simp

theorem BlockFrame.trans {b : Block} {s t u : State} (h : BlockFrame b s t) (k : BlockFrame b t u) : BlockFrame b s u := by
  constructor
  · rw [k.params, h.params]
  · rw [k.cnt, h.cnt]
  · rw [k.env, h.env]
  · rw [k.hist, h.hist]
  · rw [k.host, h.host]
  · rw [k.agenda, h.agenda]
  · rw [k.lastNb, h.lastNb]
  · rw [k.result, h.result]
  · intro e; rw [k.gpio e, h.gpio e]
  · intro e; rw [k.pads e, h.pads e]
  · intro e; rw [k.spi0 e, h.spi0 e]
  · intro e; rw [k.aux e, h.aux e]
  · intro e; rw [k.spi1 e, h.spi1 e]

theorem BlockFrame.settle (s : State) : BlockFrame .gpio s (settle s) := by constructor <;> simp

theorem BlockFrame.withGpio (s : State) (g : Gpio) : BlockFrame .gpio s (s.withGpio g) := by constructor <;> simp

theorem BlockFrame.withSpi0 (s : State) (p : Spi0) : BlockFrame .spi0 s (s.withSpi0 p) := by constructor <;> simp

theorem BlockFrame.withSpi1 (s : State) (p : Spi1) : BlockFrame .spi1 s (s.withSpi1 p) := by constructor <;> simp

theorem BlockFrame.withAux (s : State) (a : Aux) : BlockFrame .aux s (s.withAux a) := by constructor <;> simp

theorem BlockFrame.withPads (s : State) (p : Vector (BitVec 5) 3) : BlockFrame .pads s (s.withPads p) := by
  constructor <;> simp

/-- The detectors change no more than the GPIO block. -/
theorem BlockFrame.detect {touched : Pin → Bool} {o s u : State} (h : BlockFrame .gpio s u) :
    BlockFrame .gpio s (asyncDetect touched o u) := by
  refine h.trans ?_
  constructor <;> simp

/-- A read rule changes its own block at most. -/
theorem readRule_frame (r : Reg) (s : State) : BlockFrame r.block s (readRule r s).2 := by
  cases r with
  | gpfsel n | gpset n | gpclr n | gpeds n | gpren n | gpfen n | gphen n | gplen n | gparen n | gpafen n | gppuppdn n =>
    exact .drawn _ s
  | gplev n | gppudclk n | gppud => exact (BlockFrame.settle s).trans (.drawn _ _)
  | pads g | cs | enb | stat => exact .drawn _ s
  | clo | chi | clk | cntl0 | cntl1 => exact .refl _ s
  | fifo =>
    simp only [readRule, fifoRead]
    split
    · exact .withSpi0 _ _
    · exact .drawn _ s
  | io | txhold =>
    simp only [readRule, auxReceive]
    split
    · exact .withSpi1 _ _
    · split
      · exact .withSpi1 _ _
      · exact .drawn _ s

/-- A write rule that completes changes its own block at most. -/
theorem writeRule_frame {v : Word} {r : Reg} {s t : State} (h : writeRule v r s = .next t) : BlockFrame r.block s t := by
  cases r with
  | gpfsel n => cases h; exact (BlockFrame.settle s).trans (.detect (.withGpio _ _))
  | gpset n | gpclr n => cases h; exact .detect (.withGpio _ _)
  | gplev n => cases h; exact .refl _ s
  | gpeds n | gpren n | gpfen n | gphen n | gplen n | gparen n | gpafen n => cases h; exact .withGpio _ _
  | gppud =>
    simp only [writeRule, gppudWrite, gppudStore] at h
    split at h
    · cases h
    · cases h; exact (BlockFrame.settle s).trans (.withGpio _ _)
  | gppudclk n => cases h; exact (BlockFrame.settle s).trans (.detect ((BlockFrame.withGpio _ _).trans (.drawn _ _)))
  | gppuppdn n => cases h; exact .detect (.withGpio _ _)
  | pads g =>
    cases h
    unfold padsStore
    split
    · exact .withPads _ _
    · exact .refl _ s
  | clo | chi | stat => cases h
  | cs =>
    simp only [writeRule, csWrite, csStore] at h
    split at h
    · cases h
    · split at h <;> cases h
      exact .withSpi0 _ _
  | fifo =>
    simp only [writeRule, fifoWrite, fifoStore] at h
    split at h
    · cases h
    · split at h <;> cases h
      exact .withSpi0 _ _
  | clk =>
    simp only [writeRule, clkWrite, clkStore] at h
    split at h <;> cases h
    exact .withSpi0 _ _
  | enb => cases h; exact .withAux _ _
  | cntl0 | cntl1 => cases h; exact .withSpi1 _ _
  | io | txhold =>
    simp only [writeRule, auxPush] at h
    split at h
    · cases h
    · split at h <;> cases h
      exact .withSpi1 _ _

/-- No rule of a register faults: only line `order` does (R341). -/
theorem writeRule_ne_fault (v : Word) (r : Reg) (s : State) (f : Fault) : writeRule v r s ≠ .fault f := by
  intro h
  cases r with
  | gppud => simp only [writeRule, gppudWrite, gppudStore] at h; split at h <;> cases h
  | cs => simp only [writeRule, csWrite, csStore] at h; split at h <;> [cases h; split at h] <;> cases h
  | fifo => simp only [writeRule, fifoWrite, fifoStore] at h; split at h <;> [cases h; split at h] <;> cases h
  | clk => simp only [writeRule, clkWrite, clkStore] at h; split at h <;> cases h
  | io | txhold => simp only [writeRule, auxPush] at h; split at h <;> [cases h; split at h] <;> cases h
  | _ => cases h

end Sys2Proof.Machine
end

