-- ==== Sys2Proof/Laws/Images.lean ====
section
/-! SUPPORT. The fields of every register image that is assembled from slices (R107, R109, R111, R113, R114): each field at
its place, the free positions those of the free word, and the stored parts put together again. -/

namespace Sys2Proof.Machine

/-- The parts of `CS_OTHER` put together (R34). -/
theorem csOther_join (x : BitVec 11) : x.extractLsb' 9 2 ++ x.extractLsb' 1 8 ++ x.extractLsb' 0 1 = x := by
  rw [slice_join x 9 2 1 8 rfl, slice_join x 1 (2 + 8) 0 1 rfl]
  exact slice_full x

/-- The parts of `AUX_OTHER` put together (R40). -/
theorem auxOther_join (x : BitVec 2) : x.extractLsb' 1 1 ++ x.extractLsb' 0 1 = x := by
  rw [slice_join x 1 1 0 1 rfl]
  exact slice_full x

/-- The parts of `CNTL0_OTHER` put together (R41). -/
theorem cntl0Other_join (x : BitVec 18) :
    x.extractLsb' 6 12 ++ x.extractLsb' 4 2 ++ x.extractLsb' 2 2 ++ x.extractLsb' 0 2 = x := by
  rw [slice_join x 6 12 4 2 rfl, slice_join x 4 (12 + 2) 2 2 rfl, slice_join x 2 (12 + 2 + 2) 0 2 rfl]
  exact slice_full x

/-! ### `SPEED` and the unnamed positions above it (R41) -/

theorem highPart_getLsbD {w : Nat} (n : Nat) (x : BitVec w) (i : Nat) :
    (x >>> n <<< n).getLsbD i = (decide (n ≤ i) && x.getLsbD i) := by
  rw [BitVec.getLsbD_shiftLeft, BitVec.getLsbD_ushiftRight]
  by_cases h : n ≤ i
  · by_cases hw : i < w
    · simp [h, hw, show ¬ i < n by omega]
    · simp [hw, BitVec.getLsbD_of_ge x i (by omega)]
  · simp [h, show i < n by omega]

/-- A value is its low `n` bits and the rest. -/
theorem lowPart_or_highPart {w : Nat} (n : Nat) (x : BitVec w) :
    BitVec.ofNat w (x.toNat % 2 ^ n) ||| (x >>> n <<< n) = x := by
  apply BitVec.eq_of_getLsbD_eq
  intro i hi
  rw [BitVec.getLsbD_or, highPart_getLsbD, BitVec.getLsbD_ofNat, Nat.testBit_mod_two_pow, decide_eq_true hi,
    Bool.true_and, BitVec.testBit_toNat]
  by_cases h : n ≤ i
  · simp [h, show ¬ i < n by omega]
  · simp [h, show i < n by omega]

/-- A number of `n` bits beside a value without any below bit `n`: its low part is the number. -/
theorem lowPart_of {w n a : Nat} {x : BitVec w} (hn : n ≤ w) (ha : a < 2 ^ n) (hx : ∀ k, k < n → x.getLsbD k = false) :
    (BitVec.ofNat w a ||| x).toNat % 2 ^ n = a := by
  apply Nat.eq_of_testBit_eq
  intro i
  rw [Nat.testBit_mod_two_pow, BitVec.testBit_toNat, BitVec.getLsbD_or, BitVec.getLsbD_ofNat]
  by_cases h : i < n
  · simp only [h, hx i h, show i < w by omega, decide_true, Bool.true_and, Bool.or_false]
  · simp [h, Nat.testBit_lt_two_pow (Nat.lt_of_lt_of_le ha (Nat.pow_le_pow_right (by decide) (by omega : n ≤ i)))]

/-- And the rest is the value. -/
theorem highPart_of {w n a : Nat} {x : BitVec w} (ha : a < 2 ^ n) (hx : ∀ k, k < n → x.getLsbD k = false) :
    (BitVec.ofNat w a ||| x) >>> n <<< n = x := by
  apply BitVec.eq_of_getLsbD_eq
  intro i hi
  rw [highPart_getLsbD, BitVec.getLsbD_or, BitVec.getLsbD_ofNat]
  by_cases h : n ≤ i
  · simp [h, Nat.testBit_lt_two_pow (Nat.lt_of_lt_of_le ha (Nat.pow_le_pow_right (by decide) h))]
  · simp [h, hx i (by omega)]

/-- The width of `SPEED` is at most that of its place. -/
theorem speedWidth_le (p : Params) : p.speedWidth ≤ 12 := by
  unfold Params.speedWidth
  exact Nat.le_trans List.countP_le_length (by simp)

/-- The parts of `CNTL1_OTHER` put together (R41). -/
theorem cntl1Other_join (x : BitVec 31) : x.extractLsb' 1 30 ++ x.extractLsb' 0 1 = x := by
  rw [slice_join x 1 30 0 1 rfl]
  exact slice_full x

theorem gppudWord_fields (m : BitVec 2) (d : Word) :
    (gppudWord m d).extractLsb' 0 2 = m ∧ (gppudWord m d).extractLsb' 2 30 = d.extractLsb' 2 30 := by
  unfold gppudWord
  simp (disch := decide) only [slice_append_hi, slice_append_lo, Nat.reduceSub, slice_full, and_self]

theorem padsWord_fields (a : BitVec 5) (d : Word) :
    (padsWord a d).extractLsb' 0 5 = a ∧ (padsWord a d).extractLsb' 5 27 = d.extractLsb' 5 27 := by
  unfold padsWord
  simp (disch := decide) only [slice_append_hi, slice_append_lo, Nat.reduceSub, slice_full, and_self]

/-- The bits of the image of `SPI0.CS` (R111, R201). -/
theorem csWord_bits (p : Spi0) (done rxd txd : Bool) (d : Word) :
    (csWord p done rxd txd d).getLsbD 2 = p.cpha ∧ (csWord p done rxd txd d).getLsbD 3 = p.cpol
    ∧ (csWord p done rxd txd d).getLsbD 4 = false ∧ (csWord p done rxd txd d).getLsbD 5 = false
    ∧ (csWord p done rxd txd d).getLsbD 7 = p.ta ∧ (csWord p done rxd txd d).getLsbD 16 = done
    ∧ (csWord p done rxd txd d).getLsbD 17 = rxd ∧ (csWord p done rxd txd d).getLsbD 18 = txd
    ∧ (csWord p done rxd txd d).getLsbD 21 = p.cspol0 ∧ (csWord p done rxd txd d).getLsbD 22 = p.cspol1
    ∧ (csWord p done rxd txd d).getLsbD 23 = p.cspol2 := by
  unfold csWord
  simp (disch := decide) only [bit_append_hi, bit_append_lo]
  simp only [Nat.reduceSub, bit1_getLsbD, BitVec.getLsbD_zero, and_self]

/-- The slices of the image of `SPI0.CS`. -/
theorem csWord_slices (p : Spi0) (done rxd txd : Bool) (d : Word) :
    (csWord p done rxd txd d).extractLsb' 0 2 = p.cs ∧ csOtherOf (csWord p done rxd txd d) = p.csOther
    ∧ (csWord p done rxd txd d).extractLsb' 19 2 = d.extractLsb' 19 2
    ∧ (csWord p done rxd txd d).extractLsb' 26 6 = d.extractLsb' 26 6 := by
  unfold csOtherOf csWord
  simp (disch := decide) only [slice_append_hi, slice_append_lo]
  simp only [Nat.reduceSub, slice_full, csOther_join, and_self]

/-- The fields of the image of `AUX.ENB` (R114, R232). -/
theorem enbWord_fields (a : Aux) (d : Word) :
    (enbWord a d).getLsbD 1 = a.enb ∧ auxOtherOf (enbWord a d) = a.other
    ∧ (enbWord a d).extractLsb' 3 29 = d.extractLsb' 3 29 := by
  unfold auxOtherOf enbWord
  simp (disch := decide) only [slice_append_hi, slice_append_lo, bit_append_hi, bit_append_lo]
  simp only [Nat.reduceSub, slice_full, bit1_getLsbD, auxOther_join, and_self]

/-- Counting the powers of two up to a number gives the least width that holds it. -/
theorem lt_two_pow_iff_countP {N m : Nat} (h : m < 2 ^ N) (k : Nat) :
    m < 2 ^ k ↔ ((List.range N).countP fun j => 2 ^ j ≤ m) ≤ k := by
  induction N with
  | zero =>
    have : m = 0 := by simpa using h
    simp [this]
  | succ N ih =>
    rw [List.range_succ, List.countP_append]
    by_cases hm : m < 2 ^ N
    · simp [ih hm, show ¬ 2 ^ N ≤ m by omega]
    · have all : ((List.range N).countP fun j => 2 ^ j ≤ m) = N := by
        refine (List.countP_eq_length.mpr fun j hj => ?_).trans List.length_range
        have : 2 ^ j ≤ 2 ^ N := Nat.pow_le_pow_right (by decide) (Nat.le_of_lt (by simpa using hj))
        simpa using Nat.le_trans this (by omega)
      simp only [all, show 2 ^ N ≤ m by omega, List.countP_singleton, decide_true, if_true]
      constructor
      · intro hk
        by_contra hc
        have : 2 ^ k ≤ 2 ^ N := Nat.pow_le_pow_right (by decide) (by omega)
        omega
      · intro hk
        exact Nat.lt_of_lt_of_le h (Nat.pow_le_pow_right (by decide) hk)

/-- The width of `SPEED` is the least that holds `AUX_SPEED_MAX` (R41). -/
theorem lt_two_pow_iff_speedWidth {p : Params} (h : p.auxSpeedMax ≤ 4095) (k : Nat) :
    p.auxSpeedMax < 2 ^ k ↔ p.speedWidth ≤ k :=
  lt_two_pow_iff_countP (N := 12) (by omega) k

/-- The fields of the image of `SPI1.CNTL0` (R113, R234), `SPEED` being `n` bits wide (R41). -/
theorem cntl0Word_fields {n : Nat} {a : Spi1} (hn : n ≤ 12) (ha : a.speed < 2 ^ n)
    (ho : ∀ k, k < n → a.cntl0Other.getLsbD (6 + k) = false) :
    (cntl0Word a).extractLsb' 0 6 = a.shiftlen ∧ (cntl0Word a).getLsbD 6 = a.msbfOut
    ∧ (cntl0Word a).getLsbD 9 = a.clearfifo ∧ (cntl0Word a).getLsbD 10 = a.cphaIn
    ∧ (cntl0Word a).getLsbD 11 = a.enable ∧ (cntl0Word a).getLsbD 14 = a.varWidth
    ∧ (cntl0Word a).extractLsb' 17 3 = a.cspat ∧ speedOf n (cntl0Word a) = a.speed
    ∧ cntl0OtherOf n (cntl0Word a) = a.cntl0Other := by
  have hx : ∀ k, k < n → (a.cntl0Other.extractLsb' 6 12).getLsbD k = false := fun k hk => by
    rw [bit_slice _ _ _ _ (by omega)]
    exact ho k hk
  unfold cntl0OtherOf speedOf cntl0Word
  simp (disch := decide) only [slice_append_hi, slice_append_lo, bit_append_hi, bit_append_lo]
  simp only [Nat.reduceSub, slice_full, bit1_getLsbD, lowPart_of hn ha hx, highPart_of ha hx, cntl0Other_join, and_self]

/-- The image of `SPI1.CNTL0` whose fields are taken from a value is that value. -/
theorem cntl0Word_of (n : Nat) (a : Spi1) (v : Word) (h1 : a.shiftlen = v.extractLsb' 0 6) (h2 : a.msbfOut = v.getLsbD 6)
    (h3 : a.clearfifo = v.getLsbD 9) (h4 : a.cphaIn = v.getLsbD 10) (h5 : a.enable = v.getLsbD 11)
    (h6 : a.varWidth = v.getLsbD 14) (h7 : a.cspat = v.extractLsb' 17 3) (h8 : a.speed = speedOf n v)
    (h9 : a.cntl0Other = cntl0OtherOf n v) : cntl0Word a = v := by
  have h : BitVec.ofNat 12 (speedOf n v) ||| (cntl0OtherOf n v).extractLsb' 6 12 = v.extractLsb' 20 12 := by
    unfold cntl0OtherOf speedOf
    simp (disch := decide) only [slice_append_hi]
    simp only [Nat.reduceSub, slice_full]
    exact lowPart_or_highPart n _
  unfold cntl0Word
  rw [h1, h2, h3, h4, h5, h6, h7, h8, h9, h]
  apply BitVec.eq_of_getLsbD_eq
  intro i hi
  unfold cntl0OtherOf
  interval_cases i <;> simp (disch := decide) only [bit_append_hi, bit_append_lo, slice_append_hi, slice_append_lo] <;>
    simp (disch := decide) only [Nat.reduceSub, bit_slice, slice_slice, bit1_getLsbD, Nat.reduceAdd]

/-- The fields of the image of `SPI1.CNTL1` (R114, R236). -/
theorem cntl1Word_fields (a : Spi1) :
    (cntl1Word a).getLsbD 1 = a.msbfIn ∧ cntl1OtherOf (cntl1Word a) = a.cntl1Other := by
  unfold cntl1OtherOf cntl1Word
  simp (disch := decide) only [slice_append_hi, slice_append_lo, bit_append_hi, bit_append_lo]
  simp only [Nat.reduceSub, slice_full, bit1_getLsbD, cntl1Other_join, and_self]

/-- The bits of the image of `SPI1.STAT` (R114, R240). -/
theorem statWord_bits (busy rxEmpty txFull : Bool) (d : Word) :
    (statWord busy rxEmpty txFull d).getLsbD 6 = busy ∧ (statWord busy rxEmpty txFull d).getLsbD 7 = rxEmpty
    ∧ (statWord busy rxEmpty txFull d).getLsbD 10 = txFull := by
  unfold statWord
  simp (disch := decide) only [bit_append_hi, bit_append_lo]
  simp only [Nat.reduceSub, bit1_getLsbD, and_self]

/-- The unnamed bits of the image of `SPI1.STAT` are those of the free word. -/
theorem statWord_free (busy rxEmpty txFull : Bool) (d : Word) (j : Nat) (hj : j < 32) (h6 : j ≠ 6) (h7 : j ≠ 7)
    (h10 : j ≠ 10) : (statWord busy rxEmpty txFull d).getLsbD j = d.getLsbD j := by
  unfold statWord
  interval_cases j <;> try omega
  all_goals simp (disch := decide) only [bit_append_hi, bit_append_lo]
  all_goals simp (disch := decide) only [Nat.reduceSub, bit_slice, Nat.reduceAdd]

end Sys2Proof.Machine
end

