-- ==== Sys2Proof/Laws/Invariant.lean ====
section
/-! SUPPORT. What the invariant of Safety.lean depends on: the parameters, the GPIO block's pull part and the two SPI
blocks; and that the Legacy latch and a write of `SPI1.CNTL0` keep their parts (R163, R165, R181, R41). -/

namespace Sys2Proof.Machine

/-- The invariant looks at four fields only. -/
theorem State.Inv.congr (s : State) {t : State} (hp : t.params = s.params) (hg : t.gpio = s.gpio) (h0 : t.spi0 = s.spi0)
    (h1 : t.spi1 = s.spi1) (h : s.Inv) : t.Inv := by
  obtain ⟨a, b, c, d, e⟩ := h
  constructor
  · simpa only [State.QueuesBounded, hp, h0, h1] using a
  · simpa only [State.NoReservedValue, hg, h0] using b
  · simpa only [State.HeldEmpty, h1] using c
  · simpa only [State.ArmedUnderClock, hg] using d
  · simpa only [State.SpeedFits, hp, h1] using e

/-- The part of the invariant that is about the GPIO block. -/
structure Gpio.Sound (g : Gpio) : Prop where
  pud : g.pud ≠ 3
  arm : ∀ (p : Pin) (m : BitVec 2) (t : BitVec 64) (ok : Bool), g.arm.get p = .armed m t ok → m ≠ 3
  clk : ∀ p : Pin, g.arm.get p ≠ .none → g.pudclk.getLsbD p = true

/-- A step that touches the GPIO block only needs its part. -/
theorem State.Inv.of_gpio {s t : State} (hp : t.params = s.params) (h0 : t.spi0 = s.spi0) (h1 : t.spi1 = s.spi1)
    (h : s.Inv) (hg : t.gpio.Sound) : t.Inv := by
  obtain ⟨a, b, c, d, e⟩ := h
  constructor
  · simpa only [State.QueuesBounded, hp, h0, h1] using a
  · exact ⟨by rw [h0]; exact b.1, hg.pud, hg.arm⟩
  · simpa only [State.HeldEmpty, h1] using c
  · exact hg.clk
  · simpa only [State.SpeedFits, hp, h1] using e

theorem State.Inv.sound {s : State} (h : s.Inv) : s.gpio.Sound :=
  ⟨h.noReservedValue.2.1, h.noReservedValue.2.2, h.armedUnderClock⟩

/-- Its part looks at three fields only. -/
theorem Gpio.Sound.congr {g k : Gpio} (h : g.Sound) (a : k.pud = g.pud) (b : k.arm = g.arm) (c : k.pudclk = g.pudclk) :
    k.Sound := by
  constructor
  · rw [a]
    exact h.pud
  · rw [b]
    exact h.arm
  · rw [b, c]
    exact h.clk

/-- A set of latches keeps the GPIO part. -/
theorem Gpio.Sound.latchPins {s : State} (w : Pin → Bool) (h : s.gpio.Sound) : (latchPins w s).gpio.Sound := by
  constructor
  · rw [latchPins_eq]
    exact h.pud
  · intro p m t ok
    rw [latchPins_arm]
    split
    · nofun
    · exact h.arm p m t ok
  · intro p
    rw [latchPins_arm, latchPins_eq]
    split
    · rename_i hd
      rw [Bool.and_eq_true] at hd
      exact fun _ => ((latchDue_iff s p).mp hd.2).2.1
    · exact h.clk p

theorem Gpio.Sound.settle {s : State} (h : s.gpio.Sound) : (settle s).gpio.Sound := h.latchPins _

/-- A write of `SPI1.CNTL0` leaves a `SPEED` that fits its width (R235, R41). -/
theorem State.SpeedFits.cntl0Apply (s : State) (v : Word) :
    (s.withSpi1 (cntl0Apply s.params.speedWidth s.spi1 v)).SpeedFits := by
  have h : (Machine.cntl0Apply s.params.speedWidth s.spi1 v).speed = speedOf s.params.speedWidth v
      ∧ (Machine.cntl0Apply s.params.speedWidth s.spi1 v).cntl0Other = cntl0OtherOf s.params.speedWidth v := by
    unfold Machine.cntl0Apply
    split <;> exact ⟨rfl, rfl⟩
  have hn := speedWidth_le s.params
  unfold State.SpeedFits
  rw [State.withSpi1_spi1, State.withSpi1_params, h.1, h.2]
  refine ⟨Nat.mod_lt _ (Nat.two_pow_pos _), fun k hk => ?_⟩
  unfold cntl0OtherOf
  rw [bit_append_hi _ _ _ (by omega), bit_append_hi _ _ _ (by omega), bit_append_hi _ _ _ (by omega), highPart_getLsbD,
    decide_eq_false (by omega), Bool.false_and]

end Sys2Proof.Machine
end

