-- ==== Sys2Proof/Laws/Layout.lean ====
section
/-! SUPPORT. Words renumbered between the bit positions of a register and those of the tables of spec/30_encoding.md (R5):
the two renumberings undo each other, and the bitwise operations of `set_bits` and of a poll commute with them. -/

namespace Sys2Proof

open Sys2Proof.Machine

variable {b : BitPlaces}

theorem BitPlaces.pos_lt (b : BitPlaces) {j : Nat} (hj : j < 32) : b.pos j < 32 := by
  rw [BitPlaces.pos, dif_pos hj]
  exact (b.place.get ⟨j, hj⟩).isLt

/-- No two bits stand at one place. -/
theorem BitPlaces.get_injective (hb : b.wf = true) : Function.Injective b.place.get := by
  have h : b.place.toList.Nodup := of_decide_eq_true hb
  intro i j hij
  have hl : b.place.toList.length = 32 := by simp
  apply Fin.ext
  refine (List.Nodup.getElem_inj_iff h (hi := by omega) (hj := by omega)).mp ?_
  simpa [Vector.get] using hij

theorem BitPlaces.pos_injective (hb : b.wf = true) {i j : Nat} (hi : i < 32) (hj : j < 32) (h : b.pos i = b.pos j) :
    i = j := by
  rw [BitPlaces.pos, BitPlaces.pos, dif_pos hi, dif_pos hj] at h
  exact Fin.val_eq_of_eq (BitPlaces.get_injective hb (Fin.ext h))

/-- Every place holds a bit. -/
theorem BitPlaces.pos_surjective (hb : b.wf = true) {i : Nat} (hi : i < 32) : ∃ j, j < 32 ∧ b.pos j = i := by
  obtain ⟨j, hj⟩ := Finite.surjective_of_injective (BitPlaces.get_injective hb) ⟨i, hi⟩
  refine ⟨j.val, j.isLt, ?_⟩
  rw [BitPlaces.pos, dif_pos j.isLt]
  exact congrArg Fin.val hj

theorem BitPlaces.tableWord_getLsbD (b : BitPlaces) (v : Word) {j : Nat} (hj : j < 32) :
    (b.tableWord v).getLsbD j = v.getLsbD (b.pos j) := by
  rw [BitPlaces.tableWord, packBits_getLsbD, decide_eq_true hj, Bool.true_and]

/-- The bits placed so far, each at its position and nowhere else. -/
theorem BitPlaces.placed_getLsbD (hb : b.wf = true) (w : Word) {j : Nat} (hj : j < 32) (n : Nat) (hn : n ≤ 32) :
    (b.placed w n).getLsbD (b.pos j) = (decide (j < n) && w.getLsbD j) := by
  induction n with
  | zero => simp [BitPlaces.placed]
  | succ n ih =>
    rw [BitPlaces.placed, BitVec.getLsbD_or, ih (by omega), BitVec.getLsbD_shiftLeft, BitVec.getLsbD_setWidth,
      BitVec.getLsbD_extractLsb', decide_eq_true (b.pos_lt hj)]
    by_cases h : j = n
    · subst h
      simp
    · have hne : b.pos j ≠ b.pos n := fun e => h (BitPlaces.pos_injective hb hj (by omega) e)
      by_cases h2 : j < n
      · simp only [h2, show j < n + 1 by omega, decide_true, Bool.true_and]
        by_cases h3 : b.pos j < b.pos n
        · simp [h3]
        · simp [h3, show ¬ b.pos j - b.pos n < 1 by omega]
      · simp only [h2, show ¬ j < n + 1 by omega, decide_false, Bool.false_and, Bool.false_or, Bool.true_and]
        by_cases h3 : b.pos j < b.pos n
        · simp [h3]
        · simp [h3, show ¬ b.pos j - b.pos n < 1 by omega]

/-- A placed word holds each bit at its position. -/
theorem BitPlaces.regWord_getLsbD (hb : b.wf = true) (w : Word) {j : Nat} (hj : j < 32) :
    (b.regWord w).getLsbD (b.pos j) = w.getLsbD j := by
  rw [BitPlaces.regWord, BitPlaces.placed_getLsbD hb w hj 32 (by omega), decide_eq_true hj, Bool.true_and]

/-- A placed word renumbered is the word. -/
@[simp] theorem BitPlaces.tableWord_regWord (hb : b.wf = true) (w : Word) : b.tableWord (b.regWord w) = w := by
  apply BitVec.eq_of_getLsbD_eq
  intro j hj
  rw [BitPlaces.tableWord_getLsbD b _ hj, BitPlaces.regWord_getLsbD hb w hj]

/-- A renumbered word placed is the word. -/
@[simp] theorem BitPlaces.regWord_tableWord (hb : b.wf = true) (v : Word) : b.regWord (b.tableWord v) = v := by
  apply BitVec.eq_of_getLsbD_eq
  intro i hi
  obtain ⟨j, hj, rfl⟩ := BitPlaces.pos_surjective hb hi
  rw [BitPlaces.regWord_getLsbD hb _ hj, BitPlaces.tableWord_getLsbD b v hj]

/-- Renumbering a word written back by `set_bits` (R134). -/
theorem BitPlaces.tableWord_maskedMerge (b : BitPlaces) (t value mask : Word) :
    b.tableWord (maskedMerge t value mask) = maskedMerge (b.tableWord t) (b.tableWord value) (b.tableWord mask) := by
  apply BitVec.eq_of_getLsbD_eq
  intro j hj
  have hp := b.pos_lt hj
  simp only [maskedMerge, BitPlaces.tableWord_getLsbD b _ hj, BitVec.getLsbD_or, BitVec.getLsbD_and, BitVec.getLsbD_not,
    hj, hp]

/-- A poll of named bits looks at those bits of the renumbered value. -/
theorem BitPlaces.anySet_regWord (hb : b.wf = true) (v mask : Word) :
    anySet v (b.regWord mask) = anySet (b.tableWord v) mask := by
  have zero : ∀ k : Nat, (0 : Word).getLsbD k = false := fun _ => BitVec.getLsbD_zero
  have key : v &&& b.regWord mask = 0 ↔ b.tableWord v &&& mask = 0 := by
    constructor <;> intro h <;> apply BitVec.eq_of_getLsbD_eq <;> intro i hi
    · have := congrArg (fun x : Word => x.getLsbD (b.pos i)) h
      simpa only [BitVec.getLsbD_and, BitPlaces.regWord_getLsbD hb mask hi, BitPlaces.tableWord_getLsbD b v hi,
        zero] using this
    · obtain ⟨j, hj, rfl⟩ := BitPlaces.pos_surjective hb hi
      have := congrArg (fun x : Word => x.getLsbD j) h
      simpa only [BitVec.getLsbD_and, BitPlaces.regWord_getLsbD hb mask hj, BitPlaces.tableWord_getLsbD b v hj,
        zero] using this
  simp only [anySet, bne, beq_eq_decide, key]

/-- The table's layout numbers bits as the tables do. -/
theorem BitPlaces.table_wf : BitPlaces.table.wf = true := by decide

/-- The parts of a well-formed layout. -/
theorem BitLayout.wf_iff {l : BitLayout} : l.wf = true ↔
    l.gppud.wf = true ∧ l.puppdn.wf = true ∧ l.pads.wf = true ∧ l.cs.wf = true ∧ l.fifo.wf = true ∧ l.clk.wf = true
      ∧ l.enb.wf = true ∧ l.cntl0.wf = true ∧ l.cntl1.wf = true ∧ l.stat.wf = true := by
  simp only [BitLayout.wf, Bool.and_eq_true, and_assoc]

/-- Sound parameters have a well-formed layout. -/
theorem Params.layout_wf {p : Params} (h : p.wf = true) : p.layout.wf = true := by
  simp only [Params.wf, Bool.and_eq_true] at h
  exact h.1.1.1.1.2

end Sys2Proof
end

