-- ==== Sys2Proof/Laws/PerInstr.lean ====
section
/-! SUPPORT. The statements made per instruction: what the canonical word of an instruction holds in each of its fields
(R101), one lemma per constructor. -/

namespace Sys2Proof.Laws.WordFields

/-- Under every well-formed address map the five fields of the encoded word are the instruction's direction, its
barrier form, zero, the address of its register and its datum; the datum of a read is 0. -/
def Statement (i : Instr) : Prop :=
  ∀ m : AddrMap, m.wf = true →
    (encode m i).isWrite = i.isWrite ∧ (encode m i).nb = i.nb ∧ (encode m i).zero = 0
    ∧ (encode m i).addr.toNat = m.addr i.reg ∧ (encode m i).data = i.data ∧ (i.isWrite = false → i.data = 0)

/-- The shared argument of the lemmas below. -/
theorem of_fields {i : Instr} (h : i.isWrite = false → i.data = 0) : Statement i := fun _ hm =>
  ⟨TWord.isWrite_pack _ _ _ _, TWord.nb_pack _ _ _ _, TWord.zero_pack _ _ _ _, encode_addr hm i, TWord.data_pack _ _ _ _, h⟩

theorem rdGpfsel0 (nb : Bool) : Statement (.rdGpfsel0 nb) := of_fields fun _ => rfl
theorem wrGpfsel0 (nb : Bool) (v : Word) : Statement (.wrGpfsel0 nb v) := of_fields nofun
theorem rdGpfsel1 (nb : Bool) : Statement (.rdGpfsel1 nb) := of_fields fun _ => rfl
theorem wrGpfsel1 (nb : Bool) (v : Word) : Statement (.wrGpfsel1 nb v) := of_fields nofun
theorem rdGpfsel2 (nb : Bool) : Statement (.rdGpfsel2 nb) := of_fields fun _ => rfl
theorem wrGpfsel2 (nb : Bool) (v : Word) : Statement (.wrGpfsel2 nb v) := of_fields nofun
theorem rdGpfsel3 (nb : Bool) : Statement (.rdGpfsel3 nb) := of_fields fun _ => rfl
theorem wrGpfsel3 (nb : Bool) (v : Word) : Statement (.wrGpfsel3 nb v) := of_fields nofun
theorem rdGpfsel4 (nb : Bool) : Statement (.rdGpfsel4 nb) := of_fields fun _ => rfl
theorem wrGpfsel4 (nb : Bool) (v : Word) : Statement (.wrGpfsel4 nb v) := of_fields nofun
theorem rdGpfsel5 (nb : Bool) : Statement (.rdGpfsel5 nb) := of_fields fun _ => rfl
theorem wrGpfsel5 (nb : Bool) (v : Word) : Statement (.wrGpfsel5 nb v) := of_fields nofun
theorem rdGpset0 (nb : Bool) : Statement (.rdGpset0 nb) := of_fields fun _ => rfl
theorem wrGpset0 (nb : Bool) (v : Word) : Statement (.wrGpset0 nb v) := of_fields nofun
theorem rdGpset1 (nb : Bool) : Statement (.rdGpset1 nb) := of_fields fun _ => rfl
theorem wrGpset1 (nb : Bool) (v : Word) : Statement (.wrGpset1 nb v) := of_fields nofun
theorem rdGpclr0 (nb : Bool) : Statement (.rdGpclr0 nb) := of_fields fun _ => rfl
theorem wrGpclr0 (nb : Bool) (v : Word) : Statement (.wrGpclr0 nb v) := of_fields nofun
theorem rdGpclr1 (nb : Bool) : Statement (.rdGpclr1 nb) := of_fields fun _ => rfl
theorem wrGpclr1 (nb : Bool) (v : Word) : Statement (.wrGpclr1 nb v) := of_fields nofun
theorem rdGplev0 (nb : Bool) : Statement (.rdGplev0 nb) := of_fields fun _ => rfl
theorem wrGplev0 (nb : Bool) (v : Word) : Statement (.wrGplev0 nb v) := of_fields nofun
theorem rdGplev1 (nb : Bool) : Statement (.rdGplev1 nb) := of_fields fun _ => rfl
theorem wrGplev1 (nb : Bool) (v : Word) : Statement (.wrGplev1 nb v) := of_fields nofun
theorem rdGpeds0 (nb : Bool) : Statement (.rdGpeds0 nb) := of_fields fun _ => rfl
theorem wrGpeds0 (nb : Bool) (v : Word) : Statement (.wrGpeds0 nb v) := of_fields nofun
theorem rdGpeds1 (nb : Bool) : Statement (.rdGpeds1 nb) := of_fields fun _ => rfl
theorem wrGpeds1 (nb : Bool) (v : Word) : Statement (.wrGpeds1 nb v) := of_fields nofun
theorem rdGpren0 (nb : Bool) : Statement (.rdGpren0 nb) := of_fields fun _ => rfl
theorem wrGpren0 (nb : Bool) (v : Word) : Statement (.wrGpren0 nb v) := of_fields nofun
theorem rdGpren1 (nb : Bool) : Statement (.rdGpren1 nb) := of_fields fun _ => rfl
theorem wrGpren1 (nb : Bool) (v : Word) : Statement (.wrGpren1 nb v) := of_fields nofun
theorem rdGpfen0 (nb : Bool) : Statement (.rdGpfen0 nb) := of_fields fun _ => rfl
theorem wrGpfen0 (nb : Bool) (v : Word) : Statement (.wrGpfen0 nb v) := of_fields nofun
theorem rdGpfen1 (nb : Bool) : Statement (.rdGpfen1 nb) := of_fields fun _ => rfl
theorem wrGpfen1 (nb : Bool) (v : Word) : Statement (.wrGpfen1 nb v) := of_fields nofun
theorem rdGphen0 (nb : Bool) : Statement (.rdGphen0 nb) := of_fields fun _ => rfl
theorem wrGphen0 (nb : Bool) (v : Word) : Statement (.wrGphen0 nb v) := of_fields nofun
theorem rdGphen1 (nb : Bool) : Statement (.rdGphen1 nb) := of_fields fun _ => rfl
theorem wrGphen1 (nb : Bool) (v : Word) : Statement (.wrGphen1 nb v) := of_fields nofun
theorem rdGplen0 (nb : Bool) : Statement (.rdGplen0 nb) := of_fields fun _ => rfl
theorem wrGplen0 (nb : Bool) (v : Word) : Statement (.wrGplen0 nb v) := of_fields nofun
theorem rdGplen1 (nb : Bool) : Statement (.rdGplen1 nb) := of_fields fun _ => rfl
theorem wrGplen1 (nb : Bool) (v : Word) : Statement (.wrGplen1 nb v) := of_fields nofun
theorem rdGparen0 (nb : Bool) : Statement (.rdGparen0 nb) := of_fields fun _ => rfl
theorem wrGparen0 (nb : Bool) (v : Word) : Statement (.wrGparen0 nb v) := of_fields nofun
theorem rdGparen1 (nb : Bool) : Statement (.rdGparen1 nb) := of_fields fun _ => rfl
theorem wrGparen1 (nb : Bool) (v : Word) : Statement (.wrGparen1 nb v) := of_fields nofun
theorem rdGpafen0 (nb : Bool) : Statement (.rdGpafen0 nb) := of_fields fun _ => rfl
theorem wrGpafen0 (nb : Bool) (v : Word) : Statement (.wrGpafen0 nb v) := of_fields nofun
theorem rdGpafen1 (nb : Bool) : Statement (.rdGpafen1 nb) := of_fields fun _ => rfl
theorem wrGpafen1 (nb : Bool) (v : Word) : Statement (.wrGpafen1 nb v) := of_fields nofun
theorem rdGppud (nb : Bool) : Statement (.rdGppud nb) := of_fields fun _ => rfl
theorem wrGppud (nb : Bool) (v : Word) : Statement (.wrGppud nb v) := of_fields nofun
theorem rdGppudclk0 (nb : Bool) : Statement (.rdGppudclk0 nb) := of_fields fun _ => rfl
theorem wrGppudclk0 (nb : Bool) (v : Word) : Statement (.wrGppudclk0 nb v) := of_fields nofun
theorem rdGppudclk1 (nb : Bool) : Statement (.rdGppudclk1 nb) := of_fields fun _ => rfl
theorem wrGppudclk1 (nb : Bool) (v : Word) : Statement (.wrGppudclk1 nb v) := of_fields nofun
theorem rdGppuppdn0 (nb : Bool) : Statement (.rdGppuppdn0 nb) := of_fields fun _ => rfl
theorem wrGppuppdn0 (nb : Bool) (v : Word) : Statement (.wrGppuppdn0 nb v) := of_fields nofun
theorem rdGppuppdn1 (nb : Bool) : Statement (.rdGppuppdn1 nb) := of_fields fun _ => rfl
theorem wrGppuppdn1 (nb : Bool) (v : Word) : Statement (.wrGppuppdn1 nb v) := of_fields nofun
theorem rdGppuppdn2 (nb : Bool) : Statement (.rdGppuppdn2 nb) := of_fields fun _ => rfl
theorem wrGppuppdn2 (nb : Bool) (v : Word) : Statement (.wrGppuppdn2 nb v) := of_fields nofun
theorem rdGppuppdn3 (nb : Bool) : Statement (.rdGppuppdn3 nb) := of_fields fun _ => rfl
theorem wrGppuppdn3 (nb : Bool) (v : Word) : Statement (.wrGppuppdn3 nb v) := of_fields nofun
theorem rdPads0 (nb : Bool) : Statement (.rdPads0 nb) := of_fields fun _ => rfl
theorem wrPads0 (nb : Bool) (v : Word) : Statement (.wrPads0 nb v) := of_fields nofun
theorem rdPads1 (nb : Bool) : Statement (.rdPads1 nb) := of_fields fun _ => rfl
theorem wrPads1 (nb : Bool) (v : Word) : Statement (.wrPads1 nb v) := of_fields nofun
theorem rdPads2 (nb : Bool) : Statement (.rdPads2 nb) := of_fields fun _ => rfl
theorem wrPads2 (nb : Bool) (v : Word) : Statement (.wrPads2 nb v) := of_fields nofun
theorem rdStClo (nb : Bool) : Statement (.rdStClo nb) := of_fields fun _ => rfl
theorem wrStClo (nb : Bool) (v : Word) : Statement (.wrStClo nb v) := of_fields nofun
theorem rdStChi (nb : Bool) : Statement (.rdStChi nb) := of_fields fun _ => rfl
theorem wrStChi (nb : Bool) (v : Word) : Statement (.wrStChi nb v) := of_fields nofun
theorem rdSpi0Cs (nb : Bool) : Statement (.rdSpi0Cs nb) := of_fields fun _ => rfl
theorem wrSpi0Cs (nb : Bool) (v : Word) : Statement (.wrSpi0Cs nb v) := of_fields nofun
theorem rdSpi0Fifo (nb : Bool) : Statement (.rdSpi0Fifo nb) := of_fields fun _ => rfl
theorem wrSpi0Fifo (nb : Bool) (v : Word) : Statement (.wrSpi0Fifo nb v) := of_fields nofun
theorem rdSpi0Clk (nb : Bool) : Statement (.rdSpi0Clk nb) := of_fields fun _ => rfl
theorem wrSpi0Clk (nb : Bool) (v : Word) : Statement (.wrSpi0Clk nb v) := of_fields nofun
theorem rdAuxEnb (nb : Bool) : Statement (.rdAuxEnb nb) := of_fields fun _ => rfl
theorem wrAuxEnb (nb : Bool) (v : Word) : Statement (.wrAuxEnb nb v) := of_fields nofun
theorem rdSpi1Cntl0 (nb : Bool) : Statement (.rdSpi1Cntl0 nb) := of_fields fun _ => rfl
theorem wrSpi1Cntl0 (nb : Bool) (v : Word) : Statement (.wrSpi1Cntl0 nb v) := of_fields nofun
theorem rdSpi1Cntl1 (nb : Bool) : Statement (.rdSpi1Cntl1 nb) := of_fields fun _ => rfl
theorem wrSpi1Cntl1 (nb : Bool) (v : Word) : Statement (.wrSpi1Cntl1 nb v) := of_fields nofun
theorem rdSpi1Stat (nb : Bool) : Statement (.rdSpi1Stat nb) := of_fields fun _ => rfl
theorem wrSpi1Stat (nb : Bool) (v : Word) : Statement (.wrSpi1Stat nb v) := of_fields nofun
theorem rdSpi1Io (nb : Bool) : Statement (.rdSpi1Io nb) := of_fields fun _ => rfl
theorem wrSpi1Io (nb : Bool) (v : Word) : Statement (.wrSpi1Io nb v) := of_fields nofun
theorem rdSpi1Txhold (nb : Bool) : Statement (.rdSpi1Txhold nb) := of_fields fun _ => rfl
theorem wrSpi1Txhold (nb : Bool) (v : Word) : Statement (.wrSpi1Txhold nb v) := of_fields nofun

end Sys2Proof.Laws.WordFields
end

