-- ==== Sys2Proof/Laws/Sequences.lean ====
section
/-! SUPPORT. Read-modify-write on a field (R134, R274, R284): what `set_bits` writes back, bit by bit and field by field;
the groups of a buffer (R256); and the projections of the host updates of Machine/Sequences.lean. -/

namespace Sys2Proof.Machine

theorem maskedMerge_getLsbD (t value mask : Word) (j : Nat) :
    (maskedMerge t value mask).getLsbD j =
      if mask.getLsbD j = true then value.getLsbD j else t.getLsbD j := by
  simp only [maskedMerge, BitVec.getLsbD_or, BitVec.getLsbD_and, BitVec.getLsbD_not]
  by_cases hj : j < 32
  · cases mask.getLsbD j <;> simp [hj]
  · simp [BitVec.getLsbD_of_ge t j (by omega), BitVec.getLsbD_of_ge value j (by omega), BitVec.getLsbD_of_ge mask j (by omega)]

/-- The bits of a field mask of width `w` at position `k`. -/
theorem fieldMask_getLsbD (m : Word) (w k : Nat) (hm : ∀ i, m.getLsbD i = decide (i < w)) (j : Nat) :
    (m <<< k).getLsbD j = (decide (j < 32) && decide (k ≤ j) && decide (j < k + w)) := by
  rw [BitVec.getLsbD_shiftLeft, hm]
  by_cases h1 : j < 32 <;> by_cases h2 : k ≤ j
  · by_cases h3 : j < k + w
    · simp [h1, h2, h3, show j - k < w by omega, show ¬ j < k by omega]
    · simp [h1, h2, h3, show ¬ j - k < w by omega]
  all_goals simp [h1, h2]

theorem seven_getLsbD (i : Nat) : (7#32).getLsbD i = decide (i < 3) := by
  by_cases h : i < 32
  · interval_cases i <;> rfl
  · rw [BitVec.getLsbD_of_ge _ _ (by omega), decide_eq_false (by omega)]

theorem three_getLsbD (i : Nat) : (3#32).getLsbD i = decide (i < 2) := by
  by_cases h : i < 32
  · interval_cases i <;> rfl
  · rw [BitVec.getLsbD_of_ge _ _ (by omega), decide_eq_false (by omega)]

/-- The field replaced reads as the new value. -/
theorem maskedMerge_field {w : Nat} (t m : Word) (x : BitVec w) (k : Nat) (hm : ∀ i, m.getLsbD i = decide (i < w))
    (hk : k + w ≤ 32) : (maskedMerge t (x.setWidth 32 <<< k) (m <<< k)).extractLsb' k w = x := by
  apply slice_eq
  intro i hi
  rw [maskedMerge_getLsbD, fieldMask_getLsbD m w k hm, decide_eq_true (by omega : k + i < 32),
    decide_eq_true (by omega : k ≤ k + i), decide_eq_true (by omega : k + i < k + w)]
  simp only [Bool.and_self, if_true, BitVec.getLsbD_shiftLeft, BitVec.getLsbD_setWidth,
    Nat.add_sub_cancel_left, decide_eq_true (by omega : k + i < 32), decide_eq_true (by omega : i < 32),
    decide_eq_false (by omega : ¬ k + i < k), Bool.not_false, Bool.true_and]

/-- Every other field reads as before. -/
theorem maskedMerge_other {w : Nat} (t m : Word) (x : BitVec w) (k j n : Nat) (hm : ∀ i, m.getLsbD i = decide (i < w))
    (hj : j + n ≤ k ∨ k + w ≤ j) :
    (maskedMerge t (x.setWidth 32 <<< k) (m <<< k)).extractLsb' j n = t.extractLsb' j n := by
  apply slice_eq
  intro i hi
  rw [maskedMerge_getLsbD, fieldMask_getLsbD m w k hm, BitVec.getLsbD_extractLsb', decide_eq_true hi, Bool.true_and,
    if_neg]
  simp only [Bool.and_eq_true, decide_eq_true_eq]
  omega

/-! ### Groups -/

@[simp] theorem byteGroups_nil : byteGroups [] = [] := rfl
@[simp] theorem byteGroups_one (a : Byte) : byteGroups [a] = [[a]] := rfl
@[simp] theorem byteGroups_two (a b : Byte) : byteGroups [a, b] = [[a, b]] := rfl
@[simp] theorem byteGroups_three (a b c : Byte) (rest : List Byte) :
    byteGroups (a :: b :: c :: rest) = [a, b, c] :: byteGroups rest := rfl

/-! ### Host updates -/

@[simp] theorem State.push_params (s : State) (l : List HostOp) : (s.push l).params = s.params := (rfl)
@[simp] theorem State.push_gpio (s : State) (l : List HostOp) : (s.push l).gpio = s.gpio := (rfl)
@[simp] theorem State.push_pads (s : State) (l : List HostOp) : (s.push l).pads = s.pads := (rfl)
@[simp] theorem State.push_cnt (s : State) (l : List HostOp) : (s.push l).cnt = s.cnt := (rfl)
@[simp] theorem State.push_spi0 (s : State) (l : List HostOp) : (s.push l).spi0 = s.spi0 := (rfl)
@[simp] theorem State.push_aux (s : State) (l : List HostOp) : (s.push l).aux = s.aux := (rfl)
@[simp] theorem State.push_spi1 (s : State) (l : List HostOp) : (s.push l).spi1 = s.spi1 := (rfl)
@[simp] theorem State.push_env (s : State) (l : List HostOp) : (s.push l).env = s.env := (rfl)
@[simp] theorem State.push_hist (s : State) (l : List HostOp) : (s.push l).hist = s.hist := (rfl)
@[simp] theorem State.push_lastNb (s : State) (l : List HostOp) : (s.push l).lastNb = s.lastNb := (rfl)
@[simp] theorem State.push_result (s : State) (l : List HostOp) : (s.push l).result = s.result := (rfl)
@[simp] theorem State.push_host (s : State) (l : List HostOp) :
    (s.push l).host = { s.host with todo := l ++ s.host.todo } := (rfl)
@[simp] theorem State.push_agenda (s : State) (l : List HostOp) : (s.push l).agenda = s.agenda := (rfl)
@[simp] theorem State.push_draws (s : State) (l : List HostOp) : (s.push l).draws = s.draws := (rfl)

/-- What a step of a sequence between two transactions can change: the host. -/
structure HostOnly (s t : State) : Prop where
  eq : t = { s with host := t.host }

theorem HostOnly.refl (s : State) : HostOnly s s := ⟨rfl⟩

theorem HostOnly.withHost (s : State) (h : HostSw) : HostOnly s (s.withHost h) := ⟨rfl⟩

/-- Continuing a sequence with a value read changes the host only. -/
theorem resume_hostOnly (k : ReadCont) (v : Word) (s : State) : HostOnly s (resume k v s) := by
  cases k <;> simp only [resume] <;> (repeat' split) <;> exact ⟨rfl⟩

theorem resumeRead_hostOnly (k : ReadCont) (s : State) : HostOnly s (resumeRead k s) := by
  unfold resumeRead
  split
  · exact resume_hostOnly _ _ _
  · exact ⟨rfl⟩

/-- Starting a call that is not stopped changes the host only. -/
theorem startCall_next {c : Call} {s t : State} (h : startCall c s = .next t) : HostOnly s t := by
  unfold startCall at h
  split at h
  · cases h
  · split at h
    · cases h
    · cases h
      exact ⟨rfl⟩

end Sys2Proof.Machine
end

