-- ==== Sys2Proof/Laws/Steps.lean ====
section
/-! SUPPORT. What one step of the host can be: nothing, a change of the host's own state, or one transaction between two
such changes (R10, R83). Claims about all steps need this and one lemma per agent. -/

namespace Sys2Proof.Machine

/-- What no transaction changes. -/
theorem exec_frame {i : Instr} {s t : State} (h : exec i s = .next t) :
    t.params = s.params ∧ t.hist = s.hist ∧ t.cnt = s.cnt ∧ t.env = s.env := by
  obtain ⟨e, -, -⟩ | ⟨e, -⟩ := instr_cases i
  · rw [e] at h
    obtain ⟨-, rfl⟩ := exec_rd_next h
    have f := readRule_frame i.reg s
    exact ⟨f.params, f.hist, f.cnt, f.env⟩
  · rw [e] at h
    obtain ⟨-, u, hu, rfl⟩ := exec_wr_next h
    have f := writeRule_frame hu
    exact ⟨f.params, f.hist, f.cnt, f.env⟩

/-- An operation of the host performs at most one transaction; besides it only the host changes. -/
theorem hostOp_next {op : HostOp} {s t : State} (h : hostOp op s = .next t) :
    HostOnly s t ∨ ∃ i u, exec i s = .next u ∧ HostOnly u t := by
  cases op <;> simp only [hostOp] at h
  case word w =>
    unfold runWord at h
    split at h
    · exact .inr ⟨_, _, h, ⟨rfl⟩⟩
    · cases h
  case access =>
    unfold runAccess at h
    split at h
    · cases h
    · split at h
      · exact .inr ⟨_, _, h, ⟨rfl⟩⟩
      · cases h
  case call c => exact .inl (startCall_next h)
  case rd nb r k => obtain ⟨u, hu, rfl⟩ := (mapNext_eq_next _ _ _).mp h; exact .inr ⟨_, _, hu, resumeRead_hostOnly _ _⟩
  case wr => exact .inr ⟨_, _, h, ⟨rfl⟩⟩
  case readCounter => cases h; left; unfold startCounter; split <;> exact ⟨rfl⟩
  case delayCheck => cases h; left; split <;> exact ⟨rfl⟩
  case delayStart => cases h; left; unfold startDelay; split <;> [skip; split] <;> exact ⟨rfl⟩
  case spi0Loop => cases h; left; split <;> exact ⟨rfl⟩
  case auxLoop => cases h; left; split <;> exact ⟨rfl⟩
  case spi0Fill =>
    split at h
    · cases h; exact .inl ⟨rfl⟩
    · obtain ⟨u, hu, rfl⟩ := (mapNext_eq_next _ _ _).mp h; exact .inr ⟨_, _, hu, resumeRead_hostOnly _ _⟩
  case spi0Drain =>
    split at h
    · cases h; exact .inl ⟨rfl⟩
    · obtain ⟨u, hu, rfl⟩ := (mapNext_eq_next _ _ _).mp h; exact .inr ⟨_, _, hu, resumeRead_hostOnly _ _⟩
  case auxFill =>
    split at h
    · cases h; exact .inl ⟨rfl⟩
    · obtain ⟨u, hu, rfl⟩ := (mapNext_eq_next _ _ _).mp h; exact .inr ⟨_, _, hu, resumeRead_hostOnly _ _⟩
  case auxDrain =>
    split at h
    · cases h; exact .inl ⟨rfl⟩
    · obtain ⟨u, hu, rfl⟩ := (mapNext_eq_next _ _ _).mp h; exact .inr ⟨_, _, hu, resumeRead_hostOnly _ _⟩
  case auxIdle =>
    split at h
    · cases h; exact .inl ⟨rfl⟩
    · obtain ⟨u, hu, rfl⟩ := (mapNext_eq_next _ _ _).mp h; exact .inr ⟨_, _, hu, resumeRead_hostOnly _ _⟩
  case spi0Push => obtain ⟨u, hu, rfl⟩ := (mapNext_eq_next _ _ _).mp h; exact .inr ⟨_, _, hu, ⟨rfl⟩⟩
  case auxPush => obtain ⟨u, hu, rfl⟩ := (mapNext_eq_next _ _ _).mp h; exact .inr ⟨_, _, hu, ⟨rfl⟩⟩
  all_goals (cases h; exact .inl ⟨rfl⟩)

/-- A restart of the software changes the host only (R371). -/
theorem restartStep_hostOnly (s : State) : HostOnly s (restartStep s) := ⟨rfl⟩

/-- The same for the host's step. -/
theorem hostStep_next {s t : State} (h : hostStep s = .next t) :
    HostOnly s t ∨ ∃ i v u, HostOnly s v ∧ exec i v = .next u ∧ HostOnly u t := by
  unfold hostStep at h
  split at h
  · cases h; exact .inl ⟨rfl⟩
  · split at h
    · cases h; exact .inl ⟨rfl⟩
    · rcases hostOp_next h with h | ⟨i, u, h1, h2⟩
      · left; constructor; rw [h.eq]; rfl
      · exact .inr ⟨i, _, u, ⟨rfl⟩, h1, h2⟩

end Sys2Proof.Machine
end

