-- ==== Sys2Proof/Tests/Slice0.lean ====
section
/-! SUPPORT. Tests: ill-formed terms the checks refuse; a word for every row of the opcode table, written out from its
`match` value; single steps whose results are those of spec/95_test_vectors.md (the section is named at each group); and
for every statement with hypotheses a witness that meets them, at the ends of their ranges. -/

namespace Sys2Proof.Tests

open Sys2Proof.Machine

/-! ### Well-formedness refuses -/

theorem test_wf_legacy_registers_absent_in_modern :
    (Instr.rdGppud false).wf .modern = false ∧ (Instr.wrGppud true 1).wf .modern = false
    ∧ (Instr.rdGppudclk0 false).wf .modern = false ∧ (Instr.wrGppudclk0 false 0).wf .modern = false
    ∧ (Instr.rdGppudclk1 false).wf .modern = false ∧ (Instr.wrGppudclk1 false 0).wf .modern = false := by
  decide

theorem test_wf_modern_registers_absent_in_legacy :
    (Instr.rdGppuppdn0 false).wf .legacy = false ∧ (Instr.wrGppuppdn0 false 0).wf .legacy = false
    ∧ (Instr.rdGppuppdn1 false).wf .legacy = false ∧ (Instr.wrGppuppdn1 false 0).wf .legacy = false
    ∧ (Instr.rdGppuppdn2 false).wf .legacy = false ∧ (Instr.wrGppuppdn2 false 0).wf .legacy = false
    ∧ (Instr.rdGppuppdn3 false).wf .legacy = false ∧ (Instr.wrGppuppdn3 false 0).wf .legacy = false := by
  decide

/-- Every other register exists in both generations, and each pull register in its own. -/
theorem test_wf_accepts :
    (Instr.rdGppud false).wf .legacy = true ∧ (Instr.wrGppuppdn3 false 0).wf .modern = true
    ∧ (Instr.wrGpset0 false 1).wf .modern = true ∧ (Instr.rdSpi1Io true).wf .legacy = true := by
  decide

/-- One ill-formed parameter set for each check of `Params.wf`. -/
theorem test_params_wf :
    Params.standard.wf = true
    ∧ ({ Params.standard with spi0Depth := 0 } : Params).wf = false
    ∧ ({ Params.standard with auxDepth := 0 } : Params).wf = false
    ∧ ({ Params.standard with tPudNs := 10001 } : Params).wf = false
    ∧ ({ Params.standard with pudCodes := { off := 1, up := 2, down := 0 } } : Params).wf = false
    ∧ ({ Params.standard with pudCodes := { off := 0, up := 0, down := 2 } } : Params).wf = false
    ∧ ({ Params.standard with pudCodes := { off := 0, up := 1, down := 0 } } : Params).wf = false
    ∧ ({ Params.standard with pudCodes := { off := 0, up := 1, down := 1 } } : Params).wf = false
    ∧ ({ Params.standard with pudCodes := { off := 0, up := 3, down := 1 } } : Params).wf = false
    ∧ ({ Params.standard with pudCodes := { off := 0, up := 1, down := 3 } } : Params).wf = false
    ∧ ({ Params.standard with auxClockMin := 0 } : Params).wf = false
    ∧ ({ Params.standard with auxClockMin := 2, auxClockMax := 1 } : Params).wf = false
    ∧ ({ Params.standard with auxSpeedMax := 4096 } : Params).wf = false
    ∧ ({ Params.standard with fselCodes := { FselCodes.table with alt5 := 0 } } : Params).wf = false
    ∧ ({ Params.standard with layout := { BitLayout.table with stat := ⟨BitPlaces.table.place.set 31 0⟩ } } : Params).wf = false
    ∧ ({ Params.standard with padGroups := [(0, 9), (10, 19), (20, 29), (30, 53)] } : Params).wf = false := by
  decide +kernel

/-- The table's address map, and one map that each check of `AddrMap.wf` refuses: two registers at one address (the one
R76 shows), a base that is no multiple of 4, an address of 25 bits, two members of a group at one word; a map with the
members of two groups in another order passes. -/
theorem test_addrMap_wf :
    AddrMap.table.wf = true
    ∧ ({ AddrMap.table with base := { BlockBases.table with spi1 := 0x215000 } } : AddrMap).wf = false
    ∧ ({ AddrMap.table with base := { BlockBases.table with st := 0x003001 } } : AddrMap).wf = false
    ∧ ({ AddrMap.table with base := { BlockBases.table with pads := 0x1000000 } } : AddrMap).wf = false
    ∧ ({ AddrMap.table with index := { WordIndices.table with gpset := #v[8, 7], gpfsel := #v[5, 4, 3, 2, 1, 0] } } : AddrMap).wf
        = true
    ∧ ({ AddrMap.table with index := { WordIndices.table with gpset := #v[7, 7] } } : AddrMap).wf = false := by
  decide +kernel

/-- R5's derived values: 5 microseconds are 5 ticks, and 150 cycles in them are 30 MHz. -/
theorem test_derived_params :
    Params.standard.tPudTicks = 5 ∧ ({ Params.standard with tPudNs := 4001 } : Params).tPudTicks = 5
    ∧ Params.standard.pudClockHz = 30000000 ∧ sleepTicks 400 = 400 := by
  decide

/-! ### Every row of the opcode table decodes (the words are the rows' `match` values with `NB` and `DATA` filled in) -/

theorem test_decode_gpfsel :
    decode .table 0x0020000000000000 = .ok (.rdGpfsel0 false)
    ∧ decode .table 0x8020000000000001 = .ok (.wrGpfsel0 false 0x00000001)
    ∧ decode .table 0x4020000400000000 = .ok (.rdGpfsel1 true)
    ∧ decode .table 0xC0200004A5A5A5A5 = .ok (.wrGpfsel1 true 0xA5A5A5A5)
    ∧ decode .table 0x0020000800000000 = .ok (.rdGpfsel2 false)
    ∧ decode .table 0x802000080F0F0F0F = .ok (.wrGpfsel2 false 0x0F0F0F0F)
    ∧ decode .table 0x4020000C00000000 = .ok (.rdGpfsel3 true)
    ∧ decode .table 0xC020000C00000001 = .ok (.wrGpfsel3 true 0x00000001)
    ∧ decode .table 0x0020001000000000 = .ok (.rdGpfsel4 false)
    ∧ decode .table 0x80200010A5A5A5A5 = .ok (.wrGpfsel4 false 0xA5A5A5A5)
    ∧ decode .table 0x4020001400000000 = .ok (.rdGpfsel5 true)
    ∧ decode .table 0xC02000140F0F0F0F = .ok (.wrGpfsel5 true 0x0F0F0F0F) := by
  decide

theorem test_decode_gpset :
    decode .table 0x0020001C00000000 = .ok (.rdGpset0 false)
    ∧ decode .table 0x8020001C00000001 = .ok (.wrGpset0 false 0x00000001)
    ∧ decode .table 0x4020002000000000 = .ok (.rdGpset1 true)
    ∧ decode .table 0xC0200020A5A5A5A5 = .ok (.wrGpset1 true 0xA5A5A5A5) := by
  decide

theorem test_decode_gpclr :
    decode .table 0x0020002800000000 = .ok (.rdGpclr0 false)
    ∧ decode .table 0x802000280F0F0F0F = .ok (.wrGpclr0 false 0x0F0F0F0F)
    ∧ decode .table 0x4020002C00000000 = .ok (.rdGpclr1 true)
    ∧ decode .table 0xC020002C00000001 = .ok (.wrGpclr1 true 0x00000001) := by
  decide

theorem test_decode_gplev :
    decode .table 0x0020003400000000 = .ok (.rdGplev0 false)
    ∧ decode .table 0x80200034A5A5A5A5 = .ok (.wrGplev0 false 0xA5A5A5A5)
    ∧ decode .table 0x4020003800000000 = .ok (.rdGplev1 true)
    ∧ decode .table 0xC02000380F0F0F0F = .ok (.wrGplev1 true 0x0F0F0F0F) := by
  decide

theorem test_decode_gpeds :
    decode .table 0x0020004000000000 = .ok (.rdGpeds0 false)
    ∧ decode .table 0x8020004000000001 = .ok (.wrGpeds0 false 0x00000001)
    ∧ decode .table 0x4020004400000000 = .ok (.rdGpeds1 true)
    ∧ decode .table 0xC0200044A5A5A5A5 = .ok (.wrGpeds1 true 0xA5A5A5A5) := by
  decide

theorem test_decode_gpren :
    decode .table 0x0020004C00000000 = .ok (.rdGpren0 false)
    ∧ decode .table 0x8020004C0F0F0F0F = .ok (.wrGpren0 false 0x0F0F0F0F)
    ∧ decode .table 0x4020005000000000 = .ok (.rdGpren1 true)
    ∧ decode .table 0xC020005000000001 = .ok (.wrGpren1 true 0x00000001) := by
  decide

theorem test_decode_gpfen :
    decode .table 0x0020005800000000 = .ok (.rdGpfen0 false)
    ∧ decode .table 0x80200058A5A5A5A5 = .ok (.wrGpfen0 false 0xA5A5A5A5)
    ∧ decode .table 0x4020005C00000000 = .ok (.rdGpfen1 true)
    ∧ decode .table 0xC020005C0F0F0F0F = .ok (.wrGpfen1 true 0x0F0F0F0F) := by
  decide

theorem test_decode_gphen :
    decode .table 0x0020006400000000 = .ok (.rdGphen0 false)
    ∧ decode .table 0x8020006400000001 = .ok (.wrGphen0 false 0x00000001)
    ∧ decode .table 0x4020006800000000 = .ok (.rdGphen1 true)
    ∧ decode .table 0xC0200068A5A5A5A5 = .ok (.wrGphen1 true 0xA5A5A5A5) := by
  decide

theorem test_decode_gplen :
    decode .table 0x0020007000000000 = .ok (.rdGplen0 false)
    ∧ decode .table 0x802000700F0F0F0F = .ok (.wrGplen0 false 0x0F0F0F0F)
    ∧ decode .table 0x4020007400000000 = .ok (.rdGplen1 true)
    ∧ decode .table 0xC020007400000001 = .ok (.wrGplen1 true 0x00000001) := by
  decide

theorem test_decode_gparen :
    decode .table 0x0020007C00000000 = .ok (.rdGparen0 false)
    ∧ decode .table 0x8020007CA5A5A5A5 = .ok (.wrGparen0 false 0xA5A5A5A5)
    ∧ decode .table 0x4020008000000000 = .ok (.rdGparen1 true)
    ∧ decode .table 0xC02000800F0F0F0F = .ok (.wrGparen1 true 0x0F0F0F0F) := by
  decide

theorem test_decode_gpafen :
    decode .table 0x0020008800000000 = .ok (.rdGpafen0 false)
    ∧ decode .table 0x8020008800000001 = .ok (.wrGpafen0 false 0x00000001)
    ∧ decode .table 0x4020008C00000000 = .ok (.rdGpafen1 true)
    ∧ decode .table 0xC020008CA5A5A5A5 = .ok (.wrGpafen1 true 0xA5A5A5A5) := by
  decide

theorem test_decode_gppud :
    decode .table 0x0020009400000000 = .ok (.rdGppud false)
    ∧ decode .table 0x802000940F0F0F0F = .ok (.wrGppud false 0x0F0F0F0F)
    ∧ decode .table 0x4020009800000000 = .ok (.rdGppudclk0 true)
    ∧ decode .table 0xC020009800000001 = .ok (.wrGppudclk0 true 0x00000001)
    ∧ decode .table 0x0020009C00000000 = .ok (.rdGppudclk1 false)
    ∧ decode .table 0x8020009CA5A5A5A5 = .ok (.wrGppudclk1 false 0xA5A5A5A5) := by
  decide

theorem test_decode_gppuppdn :
    decode .table 0x402000E400000000 = .ok (.rdGppuppdn0 true)
    ∧ decode .table 0xC02000E40F0F0F0F = .ok (.wrGppuppdn0 true 0x0F0F0F0F)
    ∧ decode .table 0x002000E800000000 = .ok (.rdGppuppdn1 false)
    ∧ decode .table 0x802000E800000001 = .ok (.wrGppuppdn1 false 0x00000001)
    ∧ decode .table 0x402000EC00000000 = .ok (.rdGppuppdn2 true)
    ∧ decode .table 0xC02000ECA5A5A5A5 = .ok (.wrGppuppdn2 true 0xA5A5A5A5)
    ∧ decode .table 0x002000F000000000 = .ok (.rdGppuppdn3 false)
    ∧ decode .table 0x802000F00F0F0F0F = .ok (.wrGppuppdn3 false 0x0F0F0F0F) := by
  decide

theorem test_decode_pads :
    decode .table 0x4010002C00000000 = .ok (.rdPads0 true)
    ∧ decode .table 0xC010002C00000001 = .ok (.wrPads0 true 0x00000001)
    ∧ decode .table 0x0010003000000000 = .ok (.rdPads1 false)
    ∧ decode .table 0x80100030A5A5A5A5 = .ok (.wrPads1 false 0xA5A5A5A5)
    ∧ decode .table 0x4010003400000000 = .ok (.rdPads2 true)
    ∧ decode .table 0xC01000340F0F0F0F = .ok (.wrPads2 true 0x0F0F0F0F) := by
  decide

theorem test_decode_st :
    decode .table 0x0000300400000000 = .ok (.rdStClo false)
    ∧ decode .table 0x8000300400000001 = .ok (.wrStClo false 0x00000001)
    ∧ decode .table 0x4000300800000000 = .ok (.rdStChi true)
    ∧ decode .table 0xC0003008A5A5A5A5 = .ok (.wrStChi true 0xA5A5A5A5) := by
  decide

theorem test_decode_spi0 :
    decode .table 0x0020400000000000 = .ok (.rdSpi0Cs false)
    ∧ decode .table 0x802040000F0F0F0F = .ok (.wrSpi0Cs false 0x0F0F0F0F)
    ∧ decode .table 0x4020400400000000 = .ok (.rdSpi0Fifo true)
    ∧ decode .table 0xC020400400000001 = .ok (.wrSpi0Fifo true 0x00000001)
    ∧ decode .table 0x0020400800000000 = .ok (.rdSpi0Clk false)
    ∧ decode .table 0x80204008A5A5A5A5 = .ok (.wrSpi0Clk false 0xA5A5A5A5) := by
  decide

theorem test_decode_aux :
    decode .table 0x4021500400000000 = .ok (.rdAuxEnb true)
    ∧ decode .table 0xC02150040F0F0F0F = .ok (.wrAuxEnb true 0x0F0F0F0F) := by
  decide

theorem test_decode_spi1 :
    decode .table 0x0021508000000000 = .ok (.rdSpi1Cntl0 false)
    ∧ decode .table 0x8021508000000001 = .ok (.wrSpi1Cntl0 false 0x00000001)
    ∧ decode .table 0x4021508400000000 = .ok (.rdSpi1Cntl1 true)
    ∧ decode .table 0xC0215084A5A5A5A5 = .ok (.wrSpi1Cntl1 true 0xA5A5A5A5)
    ∧ decode .table 0x0021508800000000 = .ok (.rdSpi1Stat false)
    ∧ decode .table 0x802150880F0F0F0F = .ok (.wrSpi1Stat false 0x0F0F0F0F)
    ∧ decode .table 0x402150A000000000 = .ok (.rdSpi1Io true)
    ∧ decode .table 0xC02150A000000001 = .ok (.wrSpi1Io true 0x00000001)
    ∧ decode .table 0x002150B000000000 = .ok (.rdSpi1Txhold false)
    ∧ decode .table 0x802150B0A5A5A5A5 = .ok (.wrSpi1Txhold false 0xA5A5A5A5) := by
  decide

/-- spec/95_test_vectors.md 2.1: the words that are refused. -/
theorem test_decode_refused :
    decode .table 0x0120000800000000 = .error .malformed ∧ decode .table 0x0020000800000001 = .error .malformed
    ∧ decode .table 0x0020000900000000 = .error .misaligned ∧ decode .table 0x4021508900000000 = .error .misaligned
    ∧ decode .table 0x0020001800000000 = .error .unknownRegister ∧ decode .table 0x0010100000000000 = .error .unknownRegister
    ∧ decode .table 0x0000300000000000 = .error .unknownRegister := by
  decide

/-- The same instruction through the opcode table's numbering, and a word the decoder refuses. -/
theorem test_decodeTableWord :
    decodeTableWord 64 0x8020001C01000000 = some (.wrGpset0 false 0x01000000)
    ∧ decodeTableWord 64 0x0000300000000000 = none := by
  decide

/-! ### Single steps -/

/-- What an outcome's next state holds. -/
def got {α : Type} (f : State → α) : Out → Option α
  | .next t => some (f t)
  | _ => none

/-- The refusal an outcome ends in. -/
def refusal : Out → Option Refusal
  | .refused r => some r
  | _ => none

/-- The fault an outcome ends in. -/
def faulted : Out → Option Fault
  | .fault r => some r
  | _ => none

/-- A Legacy state with SPI1 enabled. -/
def legacy : State := State.reset.withAux { enb := true, other := 0 }

/-- A Modern state with SPI1 enabled. -/
def modern : State := { legacy with params := { Params.standard with variant := .modern } }

/-- A state whose GPIO block is that of `legacy` but for an update. -/
def withPins (f : Gpio → Gpio) : State := legacy.withGpio (f legacy.gpio)

/-- Every pin an output. -/
def outputs : State := withPins fun g => { g with fsel := Vector.replicate numPins .output }

/-! Section 2.2, the GPIO data path. -/

theorem test_fsel_image :
    fselWord .table 2 (Vector.set (Vector.replicate numPins .input) 20 .alt4) 0 = 0x00000003
    ∧ fselWord .table 5 (Vector.replicate numPins .alt3) 0 = 0x00000FFF
    ∧ fselWord .table 0 (Vector.set (Vector.replicate numPins .input) 9 .alt5) 0 = 0x10000000 := by
  decide

theorem test_wrGpfsel2 :
    got (fun t => (t.gpio.fsel.get 24, t.gpio.fsel.get 20, t.gpio.fsel.get 29, t.gpio.fsel.get 30))
      (exec (.wrGpfsel2 false 0x00001000) (withPins fun g => { g with fsel := Vector.replicate numPins .alt0 }))
      = some (.output, .input, .input, .alt0) := by
  decide

theorem test_wrGpfsel5 :
    got (fun t => (t.gpio.fsel.get 49, t.gpio.fsel.get 50, t.gpio.fsel.get 53)) (exec (.wrGpfsel5 false 0xFFFFFFFF) legacy)
      = some (.input, .alt3, .alt3) := by
  decide

theorem test_wrGpset0 :
    got (fun t => t.gpio.out) (exec (.wrGpset0 false 0x01000000) legacy) = some 0x01000000 := by
  decide +kernel

theorem test_wrGpset1 :
    got (fun t => t.gpio.out) (exec (.wrGpset1 false 0xFFFFFFFF) legacy) = some 0x3FFFFF00000000 := by
  decide +kernel

theorem test_wrGpclr0 :
    got (fun t => t.gpio.out) (exec (.wrGpclr0 false 0x01000000) (withPins fun g => { g with out := 0x01000001 }))
      = some 1 := by
  decide +kernel

theorem test_wrGpclr1 :
    got (fun t => t.gpio.out) (exec (.wrGpclr1 true 0x00000100) (withPins fun g => { g with out := 0x30000000000 }))
      = some 0x20000000000 := by
  decide +kernel

theorem test_rdGplev0_outputs :
    got (fun t => t.result) (exec (.rdGplev0 false) (outputs.withGpio { outputs.gpio with out := 0xF01000001 }))
      = some (some 0x01000001) := by
  decide +kernel

theorem test_wrGplev0_ignored :
    got (fun t => (t.gpio, t.result)) (exec (.wrGplev0 false 0xFFFFFFFF) legacy) = some (legacy.gpio, none) := by
  decide

/-! Section 2.3, event detection. -/

theorem test_rdGpeds0 :
    got (fun t => t.result) (exec (.rdGpeds0 false) (withPins fun g => { g with eds := 0x00020010 }))
      = some (some 0x00020010) := by
  decide

theorem test_wrGpeds0_acknowledges :
    got (fun t => t.gpio.eds) (exec (.wrGpeds0 false 0x00020000) (withPins fun g => { g with eds := 0x00020010 }))
      = some 0x10 := by
  decide +kernel

theorem test_detect_enables :
    got (fun t => t.gpio.ren) (exec (.wrGpren0 false 0x00020008) (withPins fun g => { g with ren := 0x100000008 }))
      = some 0x100020008
    ∧ got (fun t => t.gpio.fen) (exec (.wrGpfen1 false 0xFFFFFFFF) legacy) = some 0x3FFFFF00000000
    ∧ got (fun t => t.gpio.hen) (exec (.wrGphen0 false 0x80000000) legacy) = some 0x80000000
    ∧ got (fun t => t.gpio.len) (exec (.wrGplen1 false 1) legacy) = some 0x100000000
    ∧ got (fun t => t.gpio.aren) (exec (.wrGparen0 false 2) legacy) = some 2
    ∧ got (fun t => t.gpio.afen) (exec (.wrGpafen0 false 4) (withPins fun g => { g with afen := 0xFF })) = some 4
    ∧ got (fun t => t.result) (exec (.rdGpren0 false) (withPins fun g => { g with ren := 0x00020008 }))
      = some (some 0x00020008) := by
  decide +kernel

/-- A rising edge on an input seen by the sampler, and one on an output seen at once by the asynchronous detector. -/
theorem test_edges :
    (sampleStep ((withPins fun g => { g with ren := 0x20000, fsel := Vector.replicate numPins .input }).withEnv
      { legacy.env with ext := Vector.replicate numPins .high })).gpio.eds = 0x20000
    ∧ got (fun t => (t.gpio.out, t.gpio.eds))
        (exec (.wrGpset0 false 0x20) (outputs.withGpio { outputs.gpio with aren := 0x20 })) = some (0x20, 0x20) := by
  decide +kernel

/-! Section 2.4, pull control. -/

/-- The first Legacy schedule, one transaction at a time: arming at 1012 and the latch at 1025. -/
theorem test_wrGppudclk0_arms :
    got (fun t => t.gpio.arm.get 4)
      (exec (.wrGppudclk0 false 0x10) ((withPins fun g => { g with pud := 1, pudT := 1000, pudSeen := true }).withCnt 1012))
      = some (.armed 1 1012 true) := by
  decide +kernel

theorem test_wrGppud_latches :
    got (fun t => (t.gpio.arm.get 4, t.gpio.pull.get 4, t.gpio.pud))
      (exec (.wrGppud false 0) ((withPins fun g =>
        { g with pud := 1, pudclk := 0x10, arm := Vector.set g.arm 4 (.armed 1 1012 true) }).withCnt 1025))
      = some (.latched, .up, 0) := by
  decide

/-- The hold time violated at 1014. -/
theorem test_wrGppud_violates :
    got (fun t => t.gpio.arm.get 4)
      (exec (.wrGppud false 0) ((withPins fun g =>
        { g with pud := 1, pudclk := 0x10, arm := Vector.set g.arm 4 (.armed 1 1012 true) }).withCnt 1014))
      = some (.armed 1 1012 false) := by
  decide

theorem test_wrGppud_reserved : refusal (exec (.wrGppud false 3) legacy) = some .reservedPullCode := by
  decide

theorem test_wrGppudclk1_disarms :
    got (fun t => (t.gpio.arm.get 40, t.gpio.pull.get 40, t.gpio.pudclk))
      (exec (.wrGppudclk1 false 0) (withPins fun g =>
        { g with pudclk := 0x10000000000, arm := Vector.set g.arm 40 .latched, pull := Vector.set g.pull 40 .down }))
      = some (.none, .down, 0) := by
  decide +kernel

theorem test_wrGppuppdn0 :
    got (fun t => (t.gpio.puppdn.get 15, t.gpio.puppdn.get 14, t.gpio.puppdn.get 16))
      (exec (.wrGppuppdn0 false 0x95555555) modern) = some (2, 1, 0) := by
  decide

theorem test_wrGppuppdn3 :
    got (fun t => t.gpio.puppdn.get 53) (exec (.wrGppuppdn3 false 0x00000400) modern) = some 1 := by
  decide

theorem test_rdGppuppdn0 :
    got (fun t => t.result) (exec (.rdGppuppdn0 false)
      (modern.withGpio { modern.gpio with puppdn := Vector.set modern.gpio.puppdn 4 1 })) = some (some 0x00000100) := by
  decide +kernel

theorem test_pull_registers_absent :
    refusal (exec (.wrGppud false 1) modern) = some .unknownRegister
    ∧ refusal (exec (.rdGppuppdn0 false) legacy) = some .unknownRegister := by
  decide

/-! Section 2.5, pads. -/

theorem test_wrPads :
    got (fun t => t.pads.get 0) (exec (.wrPads0 false 0x5A00001B) legacy) = some 0x1B
    ∧ got (fun t => t.pads.get 0) (exec (.wrPads0 false 0x0000001B) legacy) = some 0
    ∧ got (fun t => t.pads.get 1) (exec (.wrPads1 false 0x5AFFFFFF) legacy) = some 0x1F
    ∧ got (fun t => t.pads.get 2) (exec (.wrPads2 false 0x5B000007) legacy) = some 0 := by
  decide

/-! Section 2.6, the timer. -/

theorem test_timer_reads :
    got (fun t => t.result) (exec (.rdStClo false) (legacy.withCnt 0x00000005FFFFFFF0)) = some (some 0xFFFFFFF0)
    ∧ got (fun t => t.result) (exec (.rdStChi false) (legacy.withCnt 0x00000005FFFFFFF0)) = some (some 5) := by
  decide

theorem test_timer_ticks :
    (timerStep (legacy.withCnt 0x00000005FFFFFFFF)).cnt = 0x0000000600000000
    ∧ (timerStep (legacy.withCnt 0xFFFFFFFFFFFFFFFF)).cnt = 0 := by
  decide

theorem test_timer_writes :
    refusal (exec (.wrStClo false 0) legacy) = some .timerWrite
    ∧ refusal (exec (.wrStChi false 7) legacy) = some .timerWrite := by
  decide

/-- S6: the stale low half is not used. -/
theorem test_read_counter_rollover :
    (resume (.counterHi2 5 0xFFFFFFF0) 6 legacy).host.todo = [.rd false .clo (.counterLo2 6)]
    ∧ (resume (.counterLo2 6) 3 legacy).host.counter = 0x0000000600000003
    ∧ (resume (.counterHi2 0xA 0x100) 0xA legacy).host.counter = 0x0000000A00000100 := by
  decide

/-- S7: `delay(600)` started at 5000, and the boundary `delay(450)`. -/
theorem test_delay :
    (startDelay 600 (legacy.counted 5000)).host.todo = [.sleep 400, .readCounter, .delayCheck 5600]
    ∧ (startDelay 450 (legacy.counted 7000)).host.todo = [.readCounter, .delayCheck 7450] := by
  decide

/-! Section 2.7, SPI0. -/

/-- A state whose SPI0 block is that of `legacy` but for an update. -/
def withBus0 (f : Spi0 → Spi0) : State := legacy.withSpi0 (f legacy.spi0)

/-- The defined bits of the status register. -/
theorem test_cs_image :
    csWord legacy.spi0 legacy.done legacy.rxd legacy.txd 0 = 0x00040000
    ∧ (let s := withBus0 fun p => { p with ta := true }
       csWord s.spi0 s.done s.rxd s.txd 0 = 0x00050080)
    ∧ (let s := withBus0 fun p => { p with ta := true, txq := List.replicate 16 0, rxq := List.replicate 16 0 }
       csWord s.spi0 s.done s.rxd s.txd 0 = 0x00020080)
    ∧ (let s := withBus0 fun p => { p with cs := 1, cpha := true, cpol := true, cspol0 := true }
       csWord s.spi0 s.done s.rxd s.txd 0 = 0x0024000D) := by
  decide

theorem test_wrSpi0Cs :
    got (fun t => (t.spi0.ta, t.spi0.txq, t.spi0.rxq))
        (exec (.wrSpi0Cs false 0x000000B0) (withBus0 fun p => { p with txq := [1], rxq := [2, 3] }))
      = some (true, [], [])
    ∧ refusal (exec (.wrSpi0Cs false 3) legacy) = some .reservedChipSelect := by
  decide

/-- Positions of `SPI0.CS` with `TA` at 25 and the unnamed bit of R111 that stands there at 7. -/
def swappedCs : State :=
  { legacy with params := { legacy.params with layout := { BitLayout.table with cs := ⟨BitPlaces.table.place.swap 7 25⟩ } } }

/-- A placing that exchanges bits 7:0 with bits 31:24. -/
def exchanged : BitPlaces :=
  ⟨#v[24, 25, 26, 27, 28, 29, 30, 31, 8, 9, 10, 11, 12, 13, 14, 15, 16, 17, 18, 19, 20, 21, 22, 23, 0, 1, 2, 3, 4, 5, 6, 7]⟩

/-- A state in which the pull registers and `SPI0.FIFO` and `SPI0.CLK` place their bits so. -/
def exchangedIn (s : State) : State :=
  { s with params := { s.params with layout := { BitLayout.table with
      gppud := exchanged, puppdn := exchanged, fifo := exchanged, clk := exchanged } } }

/-- Other bit positions (R5): what is written stands where the configuration puts it, and is read and sent from there. -/
theorem test_exchanged_positions :
    (exchangedIn legacy).params.wf = true
    ∧ got (fun t => t.spi0.txq) (exec (.wrSpi0Fifo false 0xA5000000) (exchangedIn (withBus0 fun p => { p with ta := true })))
      = some [0xA5]
    ∧ got (fun t => t.result) (exec (.rdSpi0Fifo false) (exchangedIn (withBus0 fun p => { p with rxq := [0xA5] })))
      = some (some 0xA5000000)
    ∧ got (fun t => t.spi0.cdiv) (exec (.wrSpi0Clk false 0x34001200) (exchangedIn legacy)) = some 0x1234
    ∧ got (fun t => t.result) (exec (.rdSpi0Clk false) (exchangedIn (withBus0 fun p => { p with cdiv := 0x53 })))
      = some (some 0x53000000)
    ∧ got (fun t => t.gpio.pud) (exec (.wrGppud false 0x02000001) (exchangedIn legacy)) = some 2
    ∧ got (fun t => t.gpio.puppdn.get 1) (exec (.wrGppuppdn0 false 0x08000000) (exchangedIn modern)) = some 2
    ∧ clkOp (exchangedIn legacy).params.layout 250 = .wr false .clk 0xFA000000
    ∧ (exchangedIn legacy).fifoByte 0xA5000000 = 0xA5 := by
  decide +kernel

/-- Other bit positions (R5): they are well formed, `TA` is set by the bit at its place and `spi0_transfer` writes it there. -/
theorem test_wrSpi0Cs_swapped :
    swappedCs.params.wf = true
    ∧ got (fun t => (t.spi0.ta, t.spi0.csOther)) (exec (.wrSpi0Cs false 0x02000000) swappedCs) = some (true, 0)
    ∧ got (fun t => (t.spi0.ta, t.spi0.csOther)) (exec (.wrSpi0Cs false 0x00000080) swappedCs) = some (false, 0x400)
    ∧ csSetOps swappedCs.params.layout csTA csTA = [.rd false .cs (.setBits false .cs 0x02000000 0x02000000)] := by
  decide +kernel

theorem test_wrSpi0Cs_active :
    refusal (exec (.wrSpi0Cs false 0x84) (withBus0 fun p => { p with ta := true })) = some .configChangeDuringTransfer
    ∧ got (fun t => (t.spi0.ta, t.spi0.cpha)) (exec (.wrSpi0Cs false 4) (withBus0 fun p => { p with ta := true }))
      = some (false, true)
    ∧ got (fun t => t.spi0) (exec (.wrSpi0Cs false 0x00070080) (withBus0 fun p => { p with ta := true }))
      = some (withBus0 fun p => { p with ta := true }).spi0 := by
  decide

theorem test_wrSpi0Fifo :
    got (fun t => t.spi0.txq) (exec (.wrSpi0Fifo false 0xFFFFFFA5) (withBus0 fun p => { p with ta := true })) = some [0xA5]
    ∧ refusal (exec (.wrSpi0Fifo false 0xA5) legacy) = some .fifoWriteWhileIdle
    ∧ refusal (exec (.wrSpi0Fifo false 0xA5) (withBus0 fun p => { p with ta := true, txq := List.replicate 16 0 }))
      = some .txFifoOverflow := by
  decide

theorem test_rdSpi0Fifo :
    got (fun t => (t.result, t.spi0.rxq)) (exec (.rdSpi0Fifo true) (withBus0 fun p => { p with rxq := [0xA5, 0x3C] }))
      = some (some 0xA5, [0x3C]) := by
  decide

theorem test_spi0Clk :
    got (fun t => (t.spi0.cdiv, t.spi0.cdivEff)) (exec (.wrSpi0Clk false 0x000100FA) legacy) = some (0xFA, 250)
    ∧ got (fun t => t.spi0.cdivEff) (exec (.wrSpi0Clk false 1) legacy) = some 65536
    ∧ got (fun t => t.result) (exec (.rdSpi0Clk false) (withBus0 fun p => { p with cdiv := 0x53 })) = some (some 0x53)
    ∧ refusal (exec (.wrSpi0Clk false 2) (withBus0 fun p => { p with ta := true })) = some .configChangeDuringTransfer := by
  decide

/-- A state with both buses routed and both slaves echoing. -/
def routed : State :=
  (withPins fun g => { g with
    fsel := pinVector fun p =>
      if Params.standard.spi0Pins.contains p then .alt0 else if Params.standard.spi1Pins.contains p then .alt4 else .input }).withEnv
    { legacy.env with slave0 := .echo, slave1 := .echo }

theorem test_spi0Shift :
    got (fun t => (t.spi0.txq, t.spi0.rxq, t.hist))
      (spi0ShiftStep (routed.withSpi0 { routed.spi0 with ta := true, txq := [0xA5], cdiv := 250 }))
      = some ([], [0xA5], [.spi0 0 0 250 0xA5 0xA5]) := by
  decide

/-! Section 2.8, SPI1. -/

/-- A state whose SPI1 block is that of `routed` but for an update. -/
def withBus1 (f : Spi1 → Spi1) : State := routed.withSpi1 (f routed.spi1)

/-- Ready to shift in variable-width mode. -/
def ready (a : Spi1) : Spi1 := { a with varWidth := true, msbfOut := true, msbfIn := true, enable := true }

theorem test_spi1Cntl0 :
    cntl0Control 124 16 = 0x07C60850 ∧ cntl0Control 124 0x4000 = 0x07C64840 ∧ cntl0Control 124 (0x400 ||| 8) = 0x07C60C48
    ∧ got (fun t => (t.spi1.speed, t.spi1.cspat, t.spi1.shiftlen, t.spi1.cntl0Other))
        (exec (.wrSpi1Cntl0 false 0x07C60850) legacy) = some (124, 0b011, 16, 0)
    ∧ got (fun t => (t.spi1.enable, t.spi1.msbfOut)) (exec (.wrSpi1Cntl0 false 0x07C60850) legacy) = some (true, true)
    ∧ got (fun t => (t.spi1.txq, t.spi1.rxq, t.spi1.srValid, t.spi1.csheld))
        (exec (.wrSpi1Cntl0 false 0x200) (withBus1 fun a =>
          { a with txq := [{ word := 1, hold := true }], rxq := [2], srValid := true, csheld := true }))
      = some ([], [], false, false) := by
  decide

/-- An `AUX_SPEED_MAX` of 200, so a `SPEED` of 8 bits. -/
def narrowSpeed : State := { legacy with params := { legacy.params with auxSpeedMax := 200 } }

/-- R41: the width of `SPEED` follows `AUX_SPEED_MAX`; what is written above it is unnamed and read back. -/
theorem test_spi1Cntl0_narrow :
    Params.standard.speedWidth = 12 ∧ narrowSpeed.params.speedWidth = 8 ∧ narrowSpeed.params.wf = true
    ∧ got (fun t => (t.spi1.speed, t.spi1.cspat, t.spi1.cntl0Other)) (exec (.wrSpi1Cntl0 false 0x07C60850) narrowSpeed)
      = some (124, 0b011, 0)
    ∧ got (fun t => (t.spi1.speed, t.spi1.cntl0Other)) (exec (.wrSpi1Cntl0 false 0x13460850) narrowSpeed)
      = some (0x34, 0x4000)
    ∧ got (fun t => t.result) (exec (.rdSpi1Cntl0 false)
        (narrowSpeed.withSpi1 { narrowSpeed.spi1 with speed := 0x34, cntl0Other := 0x4000 })) = some (some 0x13400000) := by
  decide +kernel

theorem test_spi1Cntl1 :
    got (fun t => (t.spi1.msbfIn, t.spi1.cntl1Other)) (exec (.wrSpi1Cntl1 false 2) legacy) = some (true, 0)
    ∧ got (fun t => t.result) (exec (.rdSpi1Cntl1 false) (withBus1 fun a => { a with msbfIn := true })) = some (some 2)
    ∧ got (fun t => t.result) (exec (.rdSpi1Cntl0 false) (withBus1 fun a => { a with clearfifo := true }))
      = some (some 0x200) := by
  decide

theorem test_stat_image :
    statWord legacy.busy legacy.rxEmpty legacy.txFull 0 = 0x80
    ∧ (let s := withBus1 fun a => { a with txq := List.replicate 4 { word := 0, hold := false } }
       statWord s.busy s.rxEmpty s.txFull 0 = 0x4C0)
    ∧ (let s := withBus1 fun a => { a with rxq := [1, 2] }
       statWord s.busy s.rxEmpty s.txFull 0 = 0) := by
  decide

theorem test_wrAuxEnb :
    got (fun t => (t.aux.enb, t.aux.other)) (exec (.wrAuxEnb false 3) State.reset) = some (true, 1)
    ∧ enbWord { enb := true, other := 1 } 0 = 3 := by
  decide

theorem test_wrSpi1Stat : refusal (exec (.wrSpi1Stat false 0) legacy) = some .statusWrite := by
  decide

theorem test_spi1_gate : refusal (exec (.rdSpi1Io false) State.reset) = some .spi1Disabled := by
  decide

theorem test_wrSpi1Io :
    got (fun t => t.spi1.txq) (exec (.wrSpi1Io false 0x08AA0000) legacy) = some [{ word := 0x08AA0000, hold := false }]
    ∧ refusal (exec (.wrSpi1Io false 1) (withBus1 fun a => { a with clearfifo := true })) = some .spi1WriteWhileCleared := by
  decide

theorem test_wrSpi1Txhold :
    got (fun t => t.spi1.txq) (exec (.wrSpi1Txhold false 0x18010203) legacy) = some [{ word := 0x18010203, hold := true }]
    ∧ refusal (exec (.wrSpi1Txhold false 1)
        (withBus1 fun a => { a with txq := List.replicate 4 { word := 0, hold := false } })) = some .txFifoOverflow := by
  decide

theorem test_rdSpi1Io :
    got (fun t => (t.result, t.spi1.rxq))
        (exec (.rdSpi1Io false) (withBus1 fun a => { a with rxq := [0x11, 0x22], srValid := true, sr := 0x33 }))
      = some (some 0x11, [0x22])
    ∧ got (fun t => (t.result, t.spi1.srValid))
        (exec (.rdSpi1Io false) (withBus1 fun a => { a with srValid := true, sr := 0x33 })) = some (some 0x33, false) := by
  decide

theorem test_rdSpi1Txhold :
    got (fun t => t.result) (exec (.rdSpi1Txhold false) (withBus1 fun a => { a with rxq := [0x11] })) = some (some 0x11) := by
  decide

theorem test_spi1Shift :
    got (fun t => (t.spi1.sr, t.spi1.srValid, t.spi1.csheld, t.spi1.txq))
        (spi1ShiftStep (withBus1 fun a => ready { a with txq := [{ word := 0x18010203, hold := true }] }))
      = some (0x010203, true, true, [])
    ∧ got (fun t => (t.spi1.sr, t.spi1.csheld))
        (spi1ShiftStep (withBus1 fun a =>
          { ready a with varWidth := false, shiftlen := 16, csheld := true, txq := [{ word := 0xBEEF0000, hold := false }] }))
      = some (0xBEEF, false)
    ∧ refusal (spi1ShiftStep (withBus1 fun a => ready { a with txq := [{ word := 0x20000000, hold := false }] }))
      = some .unmodelledShiftLength
    ∧ refusal (spi1ShiftStep (withBus1 fun a =>
        { ready a with msbfIn := false, txq := [{ word := 0x08000000, hold := false }] })) = some .unmodelledBitOrder := by
  decide

/-- S5: the seven-byte buffer. -/
theorem test_packing :
    (byteGroups [1, 2, 3, 4, 5, 6, 7]).map packGroup = [0x18010203, 0x18040506, 0x08070000]
    ∧ groupWord .lsbFirst [1, 2] = 0x10804000 ∧ unpackGroup 2 0x0000DDEE = [0xDD, 0xEE] := by
  decide

/-- S2 and S3. -/
theorem test_bit_reverse :
    bitReverse 0x01 = 0x80 ∧ bitReverse 0x0F = 0xF0 ∧ bitReverse 0x12 = 0x48 ∧ bitReverse 0x96 = 0x69 := by
  decide

theorem test_aux_divider :
    auxDivider Params.standard 0 = 4095 ∧ auxDivider Params.standard 61036 = 2047
    ∧ auxDivider Params.standard 1000000 = 124 ∧ auxDivider Params.standard 200000000 = 0 := by
  decide

/-! Section 2.1, ordering and `set_bits`. -/

theorem test_order :
    faulted (exec (.rdGplev0 false) (legacy.withLastNb (some .spi0))) = some (.crossBlockWithoutBarrier .spi0 .gpio)
    ∧ faulted (exec (.wrSpi1Cntl1 false 0) (legacy.withLastNb (some .aux))) = some (.crossBlockWithoutBarrier .aux .spi1)
    ∧ got (fun t => t.lastNb) (exec (.rdStClo true) (legacy.withLastNb (some .st))) = some (some .st)
    ∧ got (fun t => t.lastNb) (exec (.rdStChi false) (legacy.withLastNb (some .st))) = some none := by
  decide

theorem test_set_bits :
    maskedMerge 0x3FFFFFFF 0x00001000 0x00007000 = 0x3FFF9FFF ∧ maskedMerge 0x00040000 0x80 0x80 = 0x00040080 := by
  decide

/-- Two runs of a word placed by `withFetchWord`: one that completes and one that is refused. -/
theorem test_withFetchWord :
    got (fun t => t.gpio.out) (step (State.reset.withFetchWord 64 0x8020001C01000000)) = some 0x01000000
    ∧ refusal (step (State.reset.withFetchWord 64 0x0120000800000000)) = some .malformedTransaction := by
  decide +kernel

/-! ### Witnesses

Each theorem shows, for the statement it is named after, states and operands that meet its hypotheses, clause by clause. -/

/-- A `legacy` state admits every register but the Modern pull fields, at each member of a group. -/
theorem admits_legacy (r : Reg) (h : variantOf r ≠ some .modern) : legacy.Admits r := by
  refine admits_of ?_ (.inl rfl) fun _ => rfl
  cases r <;> first | exact .inl rfl | exact .inr rfl | exact absurd rfl h

/-- A `modern` state admits every register but the Legacy pull ones. -/
theorem admits_modern (r : Reg) (h : variantOf r ≠ some .legacy) : modern.Admits r := by
  refine admits_of ?_ (.inl rfl) fun _ => rfl
  cases r <;> first | exact .inl rfl | exact .inr rfl | exact absurd rfl h

/-- Admission looks at the parameters, the open run and the auxiliary enable only. -/
theorem admits_like {s t : State} {r : Reg} (h : s.Admits r) (hp : t.params = s.params) (hl : t.lastNb = s.lastNb)
    (ha : t.aux = s.aux) : t.Admits r :=
  ⟨by rw [hp]; exact h.exists_, by rw [hl]; exact h.order, by rw [ha]; exact h.gate⟩

/-- A `legacy` state with another GPIO block admits what `legacy` does. -/
theorem admits_pins (f : Gpio → Gpio) (r : Reg) (h : variantOf r ≠ some .modern) : (withPins f).Admits r :=
  admits_like (admits_legacy r h) rfl rfl rfl

theorem admits_bus0 (f : Spi0 → Spi0) (r : Reg) (h : variantOf r ≠ some .modern) : (withBus0 f).Admits r :=
  admits_like (admits_legacy r h) rfl rfl rfl

theorem admits_bus1 (f : Spi1 → Spi1) (r : Reg) (h : variantOf r ≠ some .modern) : (withBus1 f).Admits r :=
  admits_like (admits_legacy r h) rfl rfl rfl

/-- The table's map, and another with distinct addresses. -/
theorem witness_DecodeOfEncode :
    AddrMap.table.wf = true
    ∧ ({ AddrMap.table with base := { BlockBases.table with gpio := 0 } } : AddrMap).wf = true := by
  decide +kernel

theorem witness_EncodeOfDecode :
    decode .table 0x8020001C01000000 = .ok (.wrGpset0 false 0x01000000)
    ∧ decode .table 0x402150B000000000 = .ok (.rdSpi1Txhold true) := by
  decide

/-- The four kinds of word, the last register by address among them. -/
theorem witness_DecodeRefusals :
    AddrMap.table.wf = true ∧ decode .table 0x8020001C01000001 = .ok (.wrGpset0 false 0x01000001)
    ∧ (0x802150B0FFFFFFFF : TWord).extractLsb' 56 6 = 0
    ∧ AddrMap.table.addr .txhold = ((0x802150B0FFFFFFFF : TWord).extractLsb' 32 24).toNat
    ∧ (0x2000000000000000 : TWord).extractLsb' 56 6 ≠ 0
    ∧ ((0x0000000000000001 : TWord).getLsbD 63 = false ∧ (0x0000000000000001 : TWord).extractLsb' 0 32 ≠ 0)
    ∧ (0x0000000300000000 : TWord).extractLsb' 32 2 ≠ 0
    ∧ (∀ r ∈ Reg.all, AddrMap.table.addr r ≠ ((0x00FFFFFC00000000 : TWord).extractLsb' 32 24).toNat) := by
  decide +kernel

/-- `placeWord` gives the state the statement asks for, with any word of the four kinds. -/
theorem witness_StepRunsDecodedWord (w : TWord) :
    (placeWord w State.reset).agenda = .host :: [] ∧ (placeWord w State.reset).host.sleepLeft = 0
    ∧ (placeWord w State.reset).host.todo = .word w :: []
    ∧ decode .table 0x8020001C01000000 = .ok (.wrGpset0 false 0x01000000) ∧ decode .table 0x0120000800000000 = .error .malformed
    ∧ decode .table 0x0020000900000000 = .error .misaligned ∧ decode .table 0x0000300000000000 = .error .unknownRegister := by
  refine ⟨rfl, rfl, rfl, ?_⟩
  decide

/-- A host with one operation to do, and nobody else to step. -/
def doing (op : HostOp) : State := (State.reset.withHost { State.reset.host with todo := [op] }).withAgenda [.host]

theorem witness_StepRunsAccess (op : HostOp) :
    (doing op).agenda = .host :: [] ∧ (doing op).host.sleepLeft = 0 ∧ (doing op).host.todo = op :: []
    ∧ (doing op).params.addrMap.wf = true
    ∧ ((2 : Nat) ≠ 4 ∨ State.reset.params.addrMap.addr .cs % 4 ≠ 0) ∧ ((4 : Nat) ≠ 4 ∨ 0x200001 % 4 ≠ 0)
    ∧ 0x101000 % 4 = 0 ∧ ∀ q ∈ Reg.all, State.reset.params.addrMap.addr q ≠ 0x101000 := by
  refine ⟨rfl, rfl, rfl, ?_, ?_⟩
  · exact witness_DecodeOfEncode.1
  · decide

theorem witness_OrderAcrossBlocks :
    (Instr.rdGplev0 false).wf legacy.params.variant = true
    ∧ (legacy.withLastNb (some .spi0)).lastNb = some .spi0 ∧ Block.spi0 ≠ (Instr.rdGplev0 false).reg.block
    ∧ legacy.lastNb = none ∧ (legacy.withLastNb (some .gpio)).lastNb = some (Instr.rdGplev0 false).reg.block
    ∧ (∃ t, exec (.rdStClo true) legacy = .next t) ∧ ∃ t, exec (.rdStClo false) legacy = .next t :=
  ⟨rfl, rfl, nofun, rfl, rfl, ⟨_, rfl⟩, ⟨_, rfl⟩⟩

theorem witness_Spi1Gate :
    State.reset.aux.enb = false ∧ (Instr.rdSpi1Io false).reg.block = .spi1 ∧ State.reset.lastNb = none
    ∧ (State.reset.withLastNb (some .spi1)).lastNb = some .spi1 :=
  ⟨rfl, rfl, rfl, rfl⟩

theorem witness_OtherVariantRefused : modern.params.variant = .modern ∧ legacy.params.variant = .legacy := ⟨rfl, rfl⟩

theorem witness_ReadsReturnWritesDoNot :
    (∃ t, exec (.wrAuxEnb false 2) legacy = .next t) ∧ (Instr.wrAuxEnb false 2).isWrite = true
    ∧ (∃ t, exec (.rdStChi false) legacy = .next t) ∧ (Instr.rdStChi false).isWrite = false :=
  ⟨⟨_, rfl⟩, rfl, ⟨_, rfl⟩, rfl⟩

/-- A read of the timer lies outside the five blocks at once. -/
theorem witness_BlockIsolation :
    (∃ t, exec (.rdStChi false) legacy = .next t) ∧ (Instr.rdStChi false).reg.block ≠ .gpio
    ∧ (Instr.rdStChi false).reg.block ≠ .pads ∧ (Instr.rdStChi false).reg.block ≠ .spi0
    ∧ (Instr.rdStChi false).reg.block ≠ .aux ∧ (Instr.rdStChi false).reg.block ≠ .spi1 :=
  ⟨⟨_, rfl⟩, nofun, nofun, nofun, nofun, nofun⟩

/-- First and last member, a pin of each, and the reserved positions at their lower ends. -/
theorem witness_FunctionSelectRead :
    (∀ n : Fin 6, legacy.Admits (.gpfsel n)) ∧ (0 : Pin).val / 10 = (0 : Fin 6).val ∧ (53 : Pin).val / 10 = (5 : Fin 6).val
    ∧ (30 ≤ 30 ∨ numPins ≤ 10 * (0 : Fin 6).val + 30 / 3) ∧ (30 ≤ 12 ∨ numPins ≤ 10 * (5 : Fin 6).val + 12 / 3) :=
  ⟨fun n => admits_legacy _ nofun, rfl, rfl, by decide, by decide⟩

theorem witness_FunctionSelectWrite :
    (∀ n : Fin 6, legacy.Admits (.gpfsel n)) ∧ legacy.params.fselCodes.wf = true
    ∧ (53 : Pin).val / 10 = (5 : Fin 6).val ∧ (49 : Pin).val / 10 ≠ (5 : Fin 6).val :=
  ⟨fun n => admits_legacy _ nofun, by decide, rfl, by decide⟩

theorem witness_OutputSetAndClear : ∀ n : Fin 2, legacy.Admits (.gpset n) := fun _ => admits_legacy _ nofun

theorem witness_SetAndClearReadFree : ∀ n : Fin 2, legacy.Admits (.gpset n) := fun _ => admits_legacy _ nofun

/-- An output, inputs driven high and low, and undriven inputs pulled up and down, all of them pin 53. -/
theorem witness_LevelRegister :
    (∀ n : Fin 2, legacy.Admits (.gplev n)) ∧ (53 : Pin).val / 32 = (1 : Fin 2).val ∧ numPins ≤ 32 * (1 : Fin 2).val + 22
    ∧ outputs.gpio.fsel.get 53 = .output ∧ legacy.gpio.fsel.get 53 = .input
    ∧ ({ legacy.env with ext := Vector.replicate numPins .high } : Env).ext.get 53 = .high
    ∧ ({ legacy.env with ext := Vector.replicate numPins .low } : Env).ext.get 53 = .low
    ∧ legacy.env.ext.get 53 = .z
    ∧ (settle (withPins fun g => { g with pull := Vector.replicate numPins .up })).pullState 53 = some .up
    ∧ (settle (withPins fun g => { g with pull := Vector.replicate numPins .down })).pullState 53 = some .down :=
  ⟨fun _ => admits_legacy _ nofun, rfl, by decide, rfl, rfl, rfl, rfl, rfl, rfl, rfl⟩

theorem witness_EventStatus :
    (∀ n : Fin 2, legacy.Admits (.gpeds n)) ∧ (31 : Pin).val / 32 = (0 : Fin 2).val
    ∧ numPins ≤ 32 * (1 : Fin 2).val + 22 :=
  ⟨fun _ => admits_legacy _ nofun, rfl, by decide⟩

theorem witness_DetectEnables :
    (∀ (e : EventKind) (n : Fin 2), legacy.Admits (e.pair n)) ∧ (32 : Pin).val / 32 = (1 : Fin 2).val
    ∧ EventKind.low ≠ .rising ∧ numPins ≤ 32 * (1 : Fin 2).val + 22 :=
  ⟨fun e _ => admits_legacy _ (by cases e <;> nofun), rfl, nofun, by decide⟩

theorem witness_LegacyPullReads :
    legacy.Admits .gppud ∧ legacy.params.layout.gppud.wf = true ∧ (53 : Pin).val / 32 = (1 : Fin 2).val
    ∧ numPins ≤ 32 * (1 : Fin 2).val + 22 :=
  ⟨admits_legacy _ nofun, by decide, rfl, by decide⟩

/-- A state whose pin 4 is clocked with the given latch record, at the given count. -/
def armed (a : Arm) (c : BitVec 64) : State :=
  (withPins fun g => { g with pud := 1, pudclk := 0x10, arm := Vector.set g.arm 4 a }).withCnt c

theorem admits_armed (a : Arm) (c : BitVec 64) (r : Reg) (h : variantOf r ≠ some .modern) : (armed a c).Admits r :=
  admits_like (admits_legacy r h) rfl rfl rfl

/-- Code 3 and code 2; a pin without a record, one latched, and one armed and not yet due. -/
theorem witness_LegacyControlWrite :
    (armed (.armed 1 0 true) 4).Admits .gppud
    ∧ ((armed (.armed 1 0 true) 4).params.layout.gppud.tableWord 0xFFFFFFFF).extractLsb' 0 2 = 3
    ∧ ((armed (.armed 1 0 true) 4).params.layout.gppud.tableWord 2).extractLsb' 0 2 ≠ 3 ∧ (settle (armed (.armed 1 0 true) 4)).gpio.arm.get 5 = .none
    ∧ (settle (armed .latched 4)).gpio.arm.get 4 = .latched
    ∧ (settle (armed (.armed 1 0 true) 4)).gpio.arm.get 4 = .armed 1 0 true :=
  ⟨admits_armed _ _ _ nofun, by decide +kernel, by decide +kernel, rfl, rfl, rfl⟩

/-- Pin 4's clock bit stays, rises and falls; its record when it falls is `latched`, which is no armed one. -/
theorem witness_LegacyClockWrite :
    legacy.Admits (.gppudclk 0) ∧ (armed .latched 4).Admits (.gppudclk 0)
    ∧ (armed .latched 4).gpio.pudclk.getLsbD 4 = (pairWrite 0 0x10 (armed .latched 4).gpio.pudclk).getLsbD 4
    ∧ legacy.gpio.pudclk.getLsbD 4 = false ∧ (pairWrite 0 0x10 legacy.gpio.pudclk).getLsbD 4 = true
    ∧ (withPins fun g => { g with pudSeen := true }).gpio.pudSeen = true
    ∧ (armed .latched 4).gpio.pudclk.getLsbD 4 = true ∧ (pairWrite 0 0 (armed .latched 4).gpio.pudclk).getLsbD 4 = false
    ∧ ∀ m i ok, (settle (armed .latched 4)).gpio.arm.get 4 ≠ .armed m i ok := by
  refine ⟨admits_legacy _ nofun, admits_armed _ _ _ nofun, ?_, rfl, ?_, rfl, rfl, ?_, fun m i ok h => ?_⟩
  · rw [show (4 : Nat) = (4 : Pin).val from rfl, pairWrite_getLsbD]
    rfl
  · rw [show (4 : Nat) = (4 : Pin).val from rfl, pairWrite_getLsbD]
    rfl
  · rw [show (4 : Nat) = (4 : Pin).val from rfl, pairWrite_getLsbD]
    rfl
  · rw [show (settle (armed .latched 4)).gpio.arm.get 4 = .latched from rfl] at h
    cases h

/-- Due exactly at the hold time, and not one tick before. -/
theorem witness_PullLatch :
    (armed (.armed 1 0 true) 5).latchDue 4 = true ∧ (armed (.armed 1 0 true) 4).latchDue 4 = false
    ∧ (armed (.armed 1 0 true) 5).gpio.arm.get 4 = .armed 1 0 true
    ∧ (armed (.armed 1 0 true) 5).params.pudCodes.decode 1 = some .up ∧ (5 : Pin) ≠ 4 :=
  ⟨by decide +kernel, by decide +kernel, rfl, rfl, by decide⟩

/-- The shortest and the longest wait; a state without latch records, and one with a latch that has fired. -/
theorem witness_LegacyPullProtocol :
    (legacy.Admits .gppud ∧ legacy.params.wf = true ∧ legacy.gpio.pudclk.getLsbD (53 : Pin) = false
      ∧ ∀ (q : Pin) (m : BitVec 2) (i : BitVec 64) (ok : Bool), legacy.gpio.arm.get q ≠ .armed m i ok)
    ∧ ((armed .latched 0).Admits .gppud ∧ (armed .latched 0).params.wf = true
      ∧ (armed .latched 0).gpio.pudclk.getLsbD (53 : Pin) = false
      ∧ ∀ (q : Pin) (m : BitVec 2) (i : BitVec 64) (ok : Bool), (armed .latched 0).gpio.arm.get q ≠ .armed m i ok) := by
  refine ⟨⟨admits_legacy _ nofun, by decide, rfl, fun q m i ok h => ?_⟩, admits_armed _ _ _ nofun, by decide, rfl,
    fun q m i ok => ?_⟩
  · rw [show legacy.gpio.arm = Vector.replicate numPins .none from rfl, vector_replicate_get] at h
    cases h
  · have h : ∀ q : Pin, (armed .latched 0).gpio.arm.get q = if q = 4 then .latched else .none := by decide
    rw [h]
    split <;> nofun

theorem witness_LegacyPullProtocol_waits :
    Params.standard.tPudTicks ≤ 5 ∧ 5 < 2 ^ 64 ∧ Params.standard.tPudTicks ≤ 18446744073709551615
    ∧ 18446744073709551615 < 2 ^ 64 := by
  decide +kernel

theorem witness_ModernPullFields :
    (∀ n : Fin 4, modern.Admits (.gppuppdn n)) ∧ modern.params.layout.puppdn.wf = true ∧ (53 : Pin).val / 16 = (3 : Fin 4).val
    ∧ numPins ≤ 16 * (3 : Fin 4).val + 12 / 2 :=
  ⟨fun _ => admits_modern _ nofun, by decide, rfl, by decide⟩

theorem witness_PadControl :
    (∀ g : Fin 3, legacy.Admits (.pads g)) ∧ legacy.params.layout.pads.wf = true
    ∧ (let p := legacy.params.layout.pads
       (p.tableWord 0x5AFFFFFF).extractLsb' 24 8 = (p.tableWord legacy.params.padPasswd).extractLsb' 24 8
       ∧ (p.tableWord 0x5B000007).extractLsb' 24 8 ≠ (p.tableWord legacy.params.padPasswd).extractLsb' 24 8) :=
  ⟨fun _ => admits_legacy _ nofun, by decide, by decide +kernel⟩

theorem witness_SampleStep :
    (settle (legacy.withEnv { legacy.env with ext := Vector.replicate numPins .high })).level 53 = .high
    ∧ (settle (legacy.withEnv { legacy.env with ext := Vector.replicate numPins .low })).level 0 = .low :=
  ⟨rfl, rfl⟩

theorem witness_AsynchronousDetection :
    (∃ t, exec (Instr.wr false 0x20 (.gpset 0)) legacy = .next t) ∧ (∃ t, exec (Instr.wr false 1 (.gpclr 1)) legacy = .next t)
    ∧ (∃ t, exec (Instr.wr false 1 (.gpfsel 5)) legacy = .next t)
    ∧ (∃ t, exec (Instr.wr false 1 (.gppuppdn 3)) modern = .next t)
    ∧ ∃ t, exec (Instr.wr false 1 (.gppudclk 1)) legacy = .next t :=
  ⟨⟨_, rfl⟩, ⟨_, rfl⟩, ⟨_, rfl⟩, ⟨_, rfl⟩, ⟨_, rfl⟩⟩

theorem witness_SetExtStep :
    (0 : Pin) ≠ 53 ∧ (settle (withPins fun g => { g with eds := 1 })).gpio.eds.getLsbD (0 : Pin) = true := by
  decide +kernel

theorem witness_TimerReads : legacy.Admits .clo := admits_legacy _ nofun

theorem witness_RefusedWrites : legacy.Admits .clo ∧ legacy.Admits .stat := ⟨admits_legacy _ nofun, admits_legacy _ nofun⟩

/-- A host whose handles are given, in a generation. -/
def handling (h : Handles) (v : PudVariant) : State :=
  State.reset.withHost { State.reset.host with ctx := { State.reset.host.ctx with handles := h, variant := v } }

/-- Every handle mapped. -/
def mapped : Handles := ⟨true, true, true, true, true, true, true⟩

/-- The rollover of S6, and the same instants within one high half; the longest interval allowed. -/
theorem witness_ReadCounterMeaning :
    (∃ t v, exec (Instr.rd false .chi) (legacy.withCnt 0x600000001) = .next t ∧ t.result = some v)
    ∧ (handling mapped .legacy).host.ctx.handles.st = true
    ∧ (handling { mapped with st := false } .legacy).host.ctx.handles.st = false
    ∧ (0x5FFFFFFEE ≤ 0x5FFFFFFF0 ∧ 0x5FFFFFFF0 ≤ 0x600000001 ∧ 0x600000001 ≤ 0x6FFFFFFED ∧ 0x6FFFFFFED - 0x5FFFFFFEE < 2 ^ 32)
    ∧ (BitVec.ofNat 64 0x600000001).extractLsb' 32 32 ≠ (BitVec.ofNat 64 0x5FFFFFFEE).extractLsb' 32 32
    ∧ (0 ≤ 1 ∧ 1 ≤ 2 ∧ 2 ≤ 3 ∧ 3 - 0 < 2 ^ 32)
    ∧ (BitVec.ofNat 64 2).extractLsb' 32 32 = (BitVec.ofNat 64 0).extractLsb' 32 32 :=
  ⟨⟨_, _, rfl, rfl⟩, rfl, rfl, by decide⟩

/-- With the positions of R111, and with others. -/
theorem witness_Spi0StatusRead :
    (legacy.Admits .cs ∧ legacy.params.layout.cs.wf = true)
    ∧ swappedCs.Admits .cs ∧ swappedCs.params.layout.cs.wf = true :=
  ⟨⟨admits_legacy _ nofun, by decide⟩, admits_of (.inl rfl) (.inl rfl) nofun, by decide⟩

/-- The reserved chip-select; a change while active; then the three ways to be allowed; and a change under other positions. -/
theorem witness_Spi0ControlWrite :
    (∀ f, (withBus0 f).Admits .cs)
    ∧ (let w := legacy.params.layout.cs.tableWord
       (w 0xFFFFFFFF).extractLsb' 0 2 = 3
       ∧ ((w 0x84).extractLsb' 0 2 ≠ 3 ∧ (withBus0 fun p => { p with ta := true }).spi0.ta = true
           ∧ (w 0x84).getLsbD 7 = true ∧ (w 0x84).getLsbD 2 ≠ (withBus0 fun p => { p with ta := true }).spi0.cpha)
       ∧ (withBus0 id).spi0.ta = false ∧ (w 0x04).getLsbD 7 = false
       ∧ ¬ ((w 0x80).extractLsb' 0 2 ≠ legacy.spi0.cs ∨ (w 0x80).getLsbD 2 ≠ legacy.spi0.cpha
           ∨ (w 0x80).getLsbD 3 ≠ legacy.spi0.cpol ∨ (w 0x80).getLsbD 21 ≠ legacy.spi0.cspol0
           ∨ (w 0x80).getLsbD 22 ≠ legacy.spi0.cspol1 ∨ (w 0x80).getLsbD 23 ≠ legacy.spi0.cspol2))
    ∧ (swappedCs.params.layout.cs.tableWord 0x02000004).getLsbD 7 = true :=
  ⟨fun f => admits_bus0 f _ nofun, by decide +kernel, by decide⟩

/-- A byte and no byte to read; idle, full, and one entry short of full. -/
theorem witness_Spi0Fifo :
    (∀ f, (withBus0 f).Admits .fifo) ∧ legacy.params.layout.fifo.wf = true ∧ (withBus0 fun p => { p with rxq := [7] }).spi0.rxq = 7 :: []
    ∧ legacy.spi0.rxq = [] ∧ legacy.spi0.ta = false
    ∧ (withBus0 fun p => { p with ta := true, txq := List.replicate 16 0 }).spi0.txq.length = legacy.params.spi0Depth
    ∧ (withBus0 fun p => { p with ta := true, txq := List.replicate 15 0 }).spi0.txq.length ≠ legacy.params.spi0Depth :=
  ⟨fun f => admits_bus0 f _ nofun, by decide, rfl, rfl, rfl, rfl, by decide⟩

theorem witness_Spi0ClockDivider :
    (∀ f, (withBus0 f).Admits .clk) ∧ legacy.params.layout.clk.wf = true ∧ (withBus0 fun p => { p with ta := true }).spi0.ta = true ∧ (withBus0 id).spi0.ta = false :=
  ⟨fun f => admits_bus0 f _ nofun, by decide, rfl, rfl⟩

theorem witness_EffectiveDivider :
    (1 : BitVec 16).toNat < 2 ∧ 2 ≤ (2 : BitVec 16).toNat ∧ 2 ≤ (0xFFFF : BitVec 16).toNat := by
  decide

/-- Idle, enabled with the receive FIFO one short of full, an unnamed bit set; routed to each slave, and not routed. -/
theorem witness_Spi0ShiftStep :
    (let s := routed.withSpi0 { routed.spi0 with ta := true, txq := [0xA5], rxq := List.replicate 15 0 }
     s.spi0.ta = true ∧ 0 < s.spi0.txq.length ∧ s.spi0.rxq.length < s.params.spi0Depth ∧ s.spi0.csOther = 0
      ∧ s.spi0.txq = 0xA5 :: [] ∧ s.routed0 = true ∧ s.env.slave0 = .echo)
    ∧ ({ routed.spi0 with csOther := 1 } : Spi0).csOther ≠ 0
    ∧ ({ routed.env with slave0 := .const 0xFF } : Env).slave0 = .const 0xFF
    ∧ ({ routed.env with slave0 := .oracle } : Env).slave0 = .oracle ∧ legacy.routed0 = false
    ∧ ¬ (legacy.spi0.ta = true ∧ 0 < legacy.spi0.txq.length ∧ legacy.spi0.rxq.length < legacy.params.spi0Depth) := by
  decide

theorem witness_AuxiliaryEnable : State.reset.Admits .enb ∧ State.reset.params.layout.enb.wf = true :=
  ⟨admits_of (.inl rfl) (.inl rfl) nofun, by decide⟩

/-- With the widest `SPEED` and with one of 8 bits. -/
theorem witness_Spi1Control0 :
    (legacy.Admits .cntl0 ∧ legacy.params.layout.cntl0.wf = true ∧ legacy.SpeedFits ∧ legacy.params.auxSpeedMax ≤ 4095)
    ∧ narrowSpeed.Admits .cntl0 ∧ narrowSpeed.params.layout.cntl0.wf = true ∧ narrowSpeed.SpeedFits
    ∧ narrowSpeed.params.auxSpeedMax ≤ 4095 :=
  ⟨⟨admits_legacy _ nofun, by decide, by unfold State.SpeedFits; decide +kernel, by decide⟩,
    admits_of (.inl rfl) (.inl rfl) (fun _ => rfl), by decide, by unfold State.SpeedFits; decide +kernel, by decide⟩

theorem witness_Spi1Control1 : legacy.Admits .cntl1 ∧ legacy.params.layout.cntl1.wf = true :=
  ⟨admits_legacy _ nofun, by decide⟩

theorem witness_Spi1StatusRead :
    legacy.Admits .stat ∧ legacy.params.layout.stat.wf = true ∧ (31 < 32 ∧ 31 ≠ 6 ∧ 31 ≠ 7 ∧ 31 ≠ 10) :=
  ⟨admits_legacy _ nofun, by decide, by decide⟩

theorem witness_Spi1Receive :
    (∀ f, (withBus1 f).Admits .io ∧ (withBus1 f).Admits .txhold)
    ∧ (withBus1 fun a => { a with rxq := [0x11] }).spi1.rxq = 0x11 :: []
    ∧ (withBus1 fun a => { a with srValid := true }).spi1.srValid = true ∧ legacy.spi1.rxq = [] ∧ legacy.spi1.srValid = false :=
  ⟨fun f => ⟨admits_bus1 f _ nofun, admits_bus1 f _ nofun⟩, rfl, rfl, rfl, rfl⟩

theorem witness_Spi1Queue :
    (∀ f, (withBus1 f).Admits .io) ∧ (withBus1 fun a => { a with clearfifo := true }).spi1.clearfifo = true
    ∧ legacy.spi1.clearfifo = false
    ∧ (List.replicate 4 ({ word := 0, hold := false } : AuxEntry)).length = legacy.params.auxDepth
    ∧ (List.replicate 3 ({ word := 0, hold := false } : AuxEntry)).length ≠ legacy.params.auxDepth :=
  ⟨fun f => admits_bus1 f _ nofun, rfl, rfl, rfl, by decide⟩

/-- Enabled with each kind of entry: legal lengths 8 and 24, an illegal one, an unnamed bit, a bit order not modelled;
routed to each slave and not routed; and not enabled. -/
theorem witness_Spi1ShiftStep :
    (let s := withBus1 fun a => ready { a with txq := [{ word := 0x18010203, hold := true }] }
     (s.aux.enb = true ∧ s.spi1.enable = true ∧ s.spi1.clearfifo = false ∧ 0 < s.spi1.txq.length ∧ s.spi1.srValid = false)
      ∧ s.spi1.cntl0Other = 0 ∧ s.spi1.cntl1Other = 0 ∧ s.spi1.msbfOut = true ∧ s.spi1.msbfIn = true
      ∧ s.spi1.varWidth = true ∧ ((0x18010203 : Word).extractLsb' 24 8).toNat = 24
      ∧ ((0x08070000 : Word).extractLsb' 24 8).toNat = 8 ∧ ((0x20000000 : Word).extractLsb' 24 8).toNat = 32
      ∧ s.routed1 = true ∧ s.env.slave1 = .echo)
    ∧ ({ routed.spi1 with cntl0Other := 1 } : Spi1).cntl0Other ≠ 0
    ∧ ({ routed.spi1 with cntl1Other := 1 } : Spi1).cntl1Other ≠ 0
    ∧ routed.spi1.msbfOut = false
    ∧ ({ routed.env with slave1 := .const 0x1234 } : Env).slave1 = .const 0x1234
    ∧ ({ routed.env with slave1 := .oracle } : Env).slave1 = .oracle ∧ legacy.routed1 = false
    ∧ legacy.spi1.enable = false := by
  decide

theorem witness_Spi1RxPushStep :
    (let s := withBus1 fun a => { a with srValid := true, rxq := [1, 2, 3] }
     s.aux.enb = true ∧ s.spi1.srValid = true ∧ s.spi1.rxq.length < s.params.auxDepth)
    ∧ ¬ (legacy.aux.enb = true ∧ legacy.spi1.srValid = true ∧ legacy.spi1.rxq.length < legacy.params.auxDepth) := by
  decide

/-- A shift that completes, a word to read, and a state that meets the invariant. -/
theorem witness_ReceiveOrder :
    (∃ t, spi1ShiftStep (withBus1 fun a => ready { a with txq := [{ word := 0x08070000, hold := false }] }) = .next t)
    ∧ (withBus1 fun a => { a with srValid := true, sr := 0x33 }).spi1.unread = 0x33 :: []
    ∧ (∃ t, exec (Instr.rd false .io) (withBus1 fun a => { a with srValid := true, sr := 0x33 }) = .next t)
    ∧ legacy.Inv := by
  refine ⟨⟨_, rfl⟩, rfl, ⟨_, rfl⟩, ⟨by unfold State.QueuesBounded; decide, ⟨by decide, by decide, fun p m t ok h => ?_⟩, nofun, fun p h => ?_,
    by unfold State.SpeedFits; decide +kernel⟩⟩
  · rw [show legacy.gpio.arm = Vector.replicate numPins .none from rfl, vector_replicate_get] at h
    cases h
  · exact absurd (vector_replicate_get _ p) h

theorem witness_SetBitsMerge :
    31 < 32 ∧ ∃ t v, exec (Instr.rd true .clk) legacy = .next t ∧ t.result = some v :=
  ⟨by decide, _, _, rfl, rfl⟩

/-- The first pin and the last. -/
theorem witness_SelectFunction :
    (∀ n : Fin 6, legacy.Admits (.gpfsel n)) ∧ (5 : Fin 6).val = (53 : Pin).val / 10 ∧ (0 : Fin 6).val = (0 : Pin).val / 10
    ∧ legacy.params.fselCodes.wf = true :=
  ⟨fun _ => admits_legacy _ nofun, rfl, rfl, by decide⟩

theorem witness_AuxiliaryDivider :
    Params.standard.wf = true ∧ 30500 ≤ Params.standard.auxClockMin ∧ Params.standard.auxClockMax ≤ 125000000
    ∧ auxDivider Params.standard 61036 < Params.standard.auxSpeedMax ∧ 1000000 ≤ 3000000 := by
  decide

theorem witness_GroupLaw :
    [4, 5, 6] ∈ (byteGroups [1, 2, 3, 4, 5, 6, 7]).dropLast ∧ [7] ∈ byteGroups [1, 2, 3, 4, 5, 6, 7]
    ∧ byteGroups [1, 2, 3] = [1, 2, 3] :: [] ∧ byteGroups [1, 2, 3, 4] = [1, 2, 3] :: [[4]]
    ∧ legacy.params.layout.stat.wf = true ∧ (legacy.params.layout.stat.tableWord 0xFFFFFBFF).getLsbD 10 = false := by
  decide +kernel

theorem witness_EchoedGroup :
    (1 ≤ ([9] : List Byte).length ∧ ([9] : List Byte).length ≤ 3)
    ∧ 1 ≤ ([7, 8, 9] : List Byte).length ∧ ([7, 8, 9] : List Byte).length ≤ 3 := by
  decide

/-- Each clause: the pin operand at 54 and at 53, and the last pad group; the handles it asks for. -/
theorem witness_CallPreconditions :
    (Call.getPull 54).pinOperand = some 54 ∧ 54 ≤ 54 ∧ (handling mapped .legacy).params.padGroups.length ≤ 3 ∧ (handling mapped .legacy).host.ctx.variant = .legacy ∧ 53 < 54
    ∧ (Call.pudclk 53 true).pinOperand = some 53
    ∧ (handling mapped .modern).host.ctx.variant = .modern
    ∧ (∀ b : Block, (handling mapped .modern).host.ctx.handles.mapped b = true)
    ∧ (handling { mapped with gpio := false } .legacy).host.ctx.handles.gpio = false
    ∧ (Call.setPull 53 (some .up) ≠ .setPull 53 none ∧ Call.setPull 53 (some .up) ≠ .getPull 53)
    ∧ ((handling { mapped with spi0 := false } .legacy).host.ctx.handles.spi0 = false
        ∧ (handling { mapped with spi0 := false } .legacy).host.ctx.handles.gpio = true ∧ 1 ≠ 0)
    ∧ ((handling { mapped with aux := false } .legacy).host.ctx.handles.gpio = true
        ∧ (handling { mapped with aux := false } .legacy).host.ctx.handles.aux = false)
    ∧ ((handling { mapped with spi1 := false } .legacy).host.ctx.handles.spi1 = false
        ∧ (handling { mapped with spi1 := false } .legacy).host.ctx.handles.gpio = true
        ∧ (handling { mapped with spi1 := false } .legacy).host.ctx.handles.aux = true)
    ∧ (handling { mapped with st := false } .legacy).host.ctx.handles.mapped Reg.clo.block = false
    ∧ (handling { mapped with pads := false } .legacy).host.ctx.handles.pads = false
        ∧ 2 < (handling { mapped with pads := false } .legacy).params.padGroups.length
    ∧ (handling { mapped with st := false } .legacy).host.ctx.handles.st = false
    ∧ Call.delay 600 ∈ ([.readCounter, .delayMicros 0 600, .delay 600] : List Call) :=
  ⟨rfl, by decide, by decide, rfl, by decide, rfl, rfl, fun b => by cases b <;> rfl, rfl, ⟨nofun, nofun⟩, ⟨rfl, rfl, by decide⟩,
    ⟨rfl, rfl⟩, ⟨rfl, rfl, rfl⟩, rfl, rfl, by decide, rfl, by decide⟩

/-- `get_pull` checks its pin in the Legacy generation too; a bad pin comes before a bad mode. -/
theorem test_call_refusals :
    refusal (startCall (.getPull 54) (handling mapped .legacy)) = some .pinOutOfRange
    ∧ got (fun t => t.host.todo) (startCall (.getPull 53) (handling mapped .legacy)) = some [.answer (.pull .error)]
    ∧ refusal (startCall (.setPull 54 none) (handling mapped .legacy)) = some .pinOutOfRange := by
  decide

/-- R371: a restart in the middle of a run keeps the hardware and starts the next run's program. -/
theorem test_restart :
    (let s := outputs.withHost { outputs.host with
        ctx := { outputs.host.ctx with handles := mapped, auxSpeed := 7 }, todo := [.readCounter], sleepLeft := 9,
        runs := [[.answerCount], [.answerRx]] }
     got (fun t => (t.host.ctx.handles.gpio, t.host.ctx.auxSpeed, t.host.todo, t.host.runs, t.host.sleepLeft, t.gpio.fsel.get 53))
        (runAgent .restart s)) = some (false, 0, [.answerCount], [[.answerRx]], 0, .output) := by
  rfl

theorem witness_HybridDelay :
    legacy.host.counter = 0 ∧ (legacy.counted 7000).host.counter ≠ 0 ∧ 450 < (451 : BitVec 64).toNat
    ∧ (450 : BitVec 64).toNat ≤ 450 ∧ legacy.host.sleepLeft = 0 ∧ 0 < 1 := by
  decide

theorem witness_WhoChangesWhat :
    (∃ t, runAgent .timer legacy = .next t) ∧ (∃ t, runAgent .sample legacy = .next t)
    ∧ (∃ t, runAgent .spi0Shift legacy = .next t) ∧ Agent.sample ≠ .timer ∧ (∀ q l, Agent.timer ≠ .setExt q l)
    ∧ (legacy.withAgenda [.timer, .sample]).agenda = .timer :: [.sample] ∧ legacy.agenda = [] :=
  ⟨⟨_, rfl⟩, ⟨_, rfl⟩, ⟨_, rfl⟩, nofun, nofun, rfl, rfl⟩

/-- A state that meets the invariant and takes a step. -/
theorem witness_StepKeepsInvariant :
    ∃ s t : State, s.Inv ∧ step s = .next t :=
  ⟨legacy.withAgenda [.timer], _, State.Inv.congr legacy rfl rfl rfl rfl witness_ReceiveOrder.2.2.2, rfl⟩

end Sys2Proof.Tests
end

section
/-! SUPPORT. What the step of each agent can do to the parameters, the history, the counter and the outside world (R10,
R33, R60, R62, R191, R371), and which step a step of the machine is (R83). -/

namespace Sys2Proof.Machine

/-! ### Steps that keep the parameters, the history, the counter and the outside world -/

/-- The parameters, the history, the counter and the outside world are those of `s`. -/
structure Quiet (s t : State) : Prop where
  params : t.params = s.params
  hist : t.hist = s.hist
  cnt : t.cnt = s.cnt
  env : t.env = s.env

theorem Quiet.refl (s : State) : Quiet s s := ⟨rfl, rfl, rfl, rfl⟩

theorem Quiet.trans {s t u : State} (h : Quiet s t) (k : Quiet t u) : Quiet s u :=
  ⟨k.params.trans h.params, k.hist.trans h.hist, k.cnt.trans h.cnt, k.env.trans h.env⟩

theorem HostOnly.quiet {s t : State} (h : HostOnly s t) : Quiet s t := by
  rw [h.eq]
  exact ⟨rfl, rfl, rfl, rfl⟩

theorem BlockFrame.quiet {b : Block} {s t : State} (h : BlockFrame b s t) : Quiet s t :=
  ⟨h.params, h.hist, h.cnt, h.env⟩

theorem exec_quiet {i : Instr} {s t : State} (h : exec i s = .next t) : Quiet s t := by
  obtain ⟨hp, hh, hc, he⟩ := exec_frame h
  exact ⟨hp, hh, hc, he⟩

/-- The host's step is at most one transaction between two changes of the host, and all three are quiet. -/
theorem hostStep_quiet {s t : State} (h : hostStep s = .next t) : Quiet s t := by
  obtain hostOnly | ⟨_, _, _, before, transaction, after⟩ := hostStep_next h
  · exact hostOnly.quiet
  · exact (before.quiet.trans (exec_quiet transaction)).trans after.quiet

theorem latchPins_blockFrame (which : Pin → Bool) (s : State) : BlockFrame .gpio s (latchPins which s) := by
  rw [latchPins_eq]
  constructor <;> simp

theorem sampleStep_blockFrame (s : State) : BlockFrame .gpio s (sampleStep s) :=
  (BlockFrame.settle s).trans ((BlockFrame.withGpio _ _).trans (.drawn _ _))

theorem rxPushStep_blockFrame (s : State) : BlockFrame .spi1 s (rxPushStep s) := by
  unfold rxPushStep
  split
  · exact .withSpi1 _ _
  · exact .refl _ _

/-! ### The engines -/

/-- What a step of `SPI0.SHIFT` can be (R214). -/
theorem spi0ShiftStep_next {s t : State} (h : spi0ShiftStep s = .next t) :
    (s.spi0ShiftEnabled = false ∧ t = s)
      ∨ (s.spi0ShiftEnabled = true ∧ s.spi0.csOther = 0
        ∧ ∃ b rest, s.spi0.txq = b :: rest ∧ t = spi0Exchange b rest s) := by
  unfold spi0ShiftStep at h
  split at h
  · rename_i enabled
    split at h
    · cases h
    · rename_i other
      split at h
      · cases h
        exact .inr ⟨enabled, not_not.mp other, _, _, ‹_›, rfl⟩
      · rename_i empty
        simp [State.spi0ShiftEnabled, empty] at enabled
  · cases h
    exact .inl ⟨Bool.eq_false_iff.mpr ‹_›, rfl⟩

/-- What a step of `SPI1.SHIFT` can be (R252). -/
theorem spi1ShiftStep_next {s t : State} (h : spi1ShiftStep s = .next t) :
    (s.spi1ShiftEnabled = false ∧ t = s)
      ∨ (s.spi1ShiftEnabled = true ∧ s.spi1.cntl0Other = 0 ∧ s.spi1.cntl1Other = 0
        ∧ s.spi1.msbfOut = true ∧ s.spi1.msbfIn = true
        ∧ ∃ e rest, s.spi1.txq = e :: rest ∧ s.spi1.lengthOk (s.spi1.bitCount e.word) = true
          ∧ t = spi1Exchange e rest (s.spi1.bitCount e.word) s) := by
  unfold spi1ShiftStep at h
  split at h
  · rename_i enabled
    split at h
    · cases h
    · rename_i other
      obtain ⟨other0, other1⟩ := not_or.mp other
      split at h
      · cases h
      · rename_i order
        obtain ⟨orderOut, orderIn⟩ := not_or.mp order
        split at h
        · split at h
          · cases h
            exact .inr ⟨enabled, not_not.mp other0, not_not.mp other1, Bool.eq_true_of_not_eq_false orderOut,
              Bool.eq_true_of_not_eq_false orderIn, _, _, ‹_›, ‹_›, rfl⟩
          · cases h
        · rename_i empty
          simp [State.spi1ShiftEnabled, empty] at enabled
  · cases h
    exact .inl ⟨Bool.eq_false_iff.mpr ‹_›, rfl⟩

/-- An exchange on SPI0 appends its transaction (R62, R214). -/
theorem spi0Exchange_hist (b : Byte) (rest : List Byte) (s : State) :
    (spi0Exchange b rest s).hist = s.hist ++ [.spi0 s.spi0.cs s.spi0.mode s.spi0.cdivEff b (s.spi0Answer b)] := by
  simp only [spi0Exchange, State.drawn_hist, State.logged_hist, State.withSpi0_hist]

/-- An exchange on SPI1 appends its transaction (R62, R252). -/
theorem spi1Exchange_hist (e : AuxEntry) (rest : List AuxEntry) (n : Nat) (s : State) :
    (spi1Exchange e rest n s).hist = s.hist ++ [.spi1 s.spi1.cspat s.spi1.speed n
      (shiftedBits s.spi1.varWidth n e.word) (s.spi1Answer n (shiftedBits s.spi1.varWidth n e.word)) e.hold] := by
  simp only [spi1Exchange, State.drawn_hist, State.logged_hist, State.withSpi1_hist]

/-! ### What each agent may change -/

/-- What `Obligations.WhoChangesWhat` allows a step of agent `a` to change. -/
def AllowedChange (a : Agent) (s t : State) : Prop :=
  t.params = s.params
    ∧ (t.hist = s.hist ∨ ((a = .spi0Shift ∨ a = .spi1Shift) ∧ ∃ e, t.hist = s.hist ++ [e]))
    ∧ (a ≠ .timer → t.cnt = s.cnt)
    ∧ ((∀ q l, a ≠ .setExt q l) → t.env = s.env)

/-- A quiet step is allowed to every agent. -/
theorem Quiet.allowed {s t : State} (h : Quiet s t) (a : Agent) : AllowedChange a s t :=
  ⟨h.params, .inl h.hist, fun _ => h.cnt, fun _ => h.env⟩

/-- Only the counter moves besides the host, which the timer may do. -/
theorem timerStep_allowed (s : State) : AllowedChange .timer s (timerStep s) :=
  ⟨rfl, .inl rfl, fun other => absurd rfl other, fun _ => rfl⟩

/-- Only the outside world changes besides the GPIO block, which `SetExt` may do. -/
theorem setExtStep_allowed (q : Pin) (l : Ext) (s : State) : AllowedChange (.setExt q l) s (setExtStep q l s) := by
  refine ⟨?_, .inl ?_, fun _ => ?_, fun other => absurd rfl (other q l)⟩ <;> simp [setExtStep, setExtApply]

theorem spi0ShiftStep_allowed {s t : State} (h : spi0ShiftStep s = .next t) : AllowedChange .spi0Shift s t := by
  obtain ⟨-, rfl⟩ | ⟨-, -, b, rest, -, rfl⟩ := spi0ShiftStep_next h
  · exact (Quiet.refl _).allowed _
  · exact ⟨rfl, .inr ⟨.inl rfl, _, spi0Exchange_hist b rest s⟩, fun _ => rfl, fun _ => rfl⟩

theorem spi1ShiftStep_allowed {s t : State} (h : spi1ShiftStep s = .next t) : AllowedChange .spi1Shift s t := by
  obtain ⟨-, rfl⟩ | ⟨-, -, -, -, -, e, rest, -, -, rfl⟩ := spi1ShiftStep_next h
  · exact (Quiet.refl _).allowed _
  · exact ⟨rfl, .inr ⟨.inr rfl, _, spi1Exchange_hist e rest _ s⟩, fun _ => rfl, fun _ => rfl⟩

/-- Every agent changes only what it may. -/
theorem runAgent_allowed {a : Agent} {s t : State} (h : runAgent a s = .next t) : AllowedChange a s t := by
  cases a with
  | host => exact (hostStep_quiet h).allowed _
  | timer => cases h; exact timerStep_allowed s
  | sample => cases h; exact (sampleStep_blockFrame s).quiet.allowed _
  | pudLatch p => cases h; exact (latchPins_blockFrame _ s).quiet.allowed _
  | spi0Shift => exact spi0ShiftStep_allowed h
  | spi1Shift => exact spi1ShiftStep_allowed h
  | rxPush => cases h; exact (rxPushStep_blockFrame s).quiet.allowed _
  | setExt p l => cases h; exact setExtStep_allowed p l s
  | sleep d => cases h; exact (HostOnly.withHost s _).quiet.allowed _
  | restart => cases h; exact (restartStep_hostOnly s).quiet.allowed _

/-! ### Whose step a step is (R83) -/

/-- With an agent on the agenda it is that agent's step. -/
theorem step_of_agenda_cons {s : State} {a : Agent} {rest : List Agent} (h : s.agenda = a :: rest) :
    step s = runAgent a { s with agenda := rest } := by
  simp only [step, State.nextAgent, State.scheduled, State.withAgenda, h]

/-- With an empty agenda it is the step of an agent that is drawn. -/
theorem step_of_agenda_nil {s : State} (h : s.agenda = []) :
    step s = runAgent (Config.freeAgent s.draws) { s with draws := s.draws + 1 } := by
  simp only [step, State.nextAgent, State.scheduled, State.drawn, h]

/-- A host that is awake performs the next operation of its program. -/
theorem hostStep_of_todo_cons {s : State} {op : HostOp} {rest : List HostOp} (hawake : s.host.sleepLeft = 0)
    (htodo : s.host.todo = op :: rest) : hostStep s = hostOp op (s.withHost { s.host with todo := rest }) := by
  simp only [hostStep, hawake, htodo, ne_eq, not_true_eq_false, if_false]

/-- The step of the machine when the host is next and awake: the next operation, on the state with the operation and the
agent taken. -/
theorem step_of_host_todo_cons {s : State} {agents : List Agent} {op : HostOp} {rest : List HostOp}
    (hagenda : s.agenda = .host :: agents) (hawake : s.host.sleepLeft = 0) (htodo : s.host.todo = op :: rest) :
    step s = hostOp op { s with agenda := agents, host := { s.host with todo := rest } } := by
  rw [step_of_agenda_cons hagenda]
  exact hostStep_of_todo_cons (s := { s with agenda := agents }) hawake htodo

/-! ### Accesses by byte offset (R8, R74, R117) -/

/-- Four bytes at a register's address are the transaction of that register. -/
theorem runAccess_of_addr {s : State} (hwf : s.params.addrMap.wf = true) (write nb : Bool) (r : Reg) (v : Word) :
    runAccess write nb (s.params.addrMap.addr r) 4 v s = exec (Instr.ofReg write nb v r) s := by
  have aligned := (AddrMap.addr_bounds hwf r).1
  have found : s.params.addrMap.regAt (s.params.addrMap.addr r) = some r := (AddrMap.regAt_eq_some hwf).mpr rfl
  simp [runAccess, aligned, found]

theorem runAccess_of_narrow_or_misaligned {addr size : Nat} (h : size ≠ 4 ∨ addr % 4 ≠ 0) (write nb : Bool) (v : Word)
    (s : State) : runAccess write nb addr size v s = .refused .narrowOrMisalignedAccess := if_pos h

theorem runAccess_of_no_register {s : State} {addr : Nat} (aligned : addr % 4 = 0)
    (hnone : ∀ q : Reg, s.params.addrMap.addr q ≠ addr) (write nb : Bool) (v : Word) :
    runAccess write nb addr 4 v s = .refused .unknownRegister := by
  simp [runAccess, aligned, AddrMap.regAt_eq_none.mpr hnone]

/-! ### The statements -/

/-- Settles O57: every agent changes only what it may (`runAgent_allowed`), and the scheduling equations. -/
theorem whoChangesWhat : Obligations.WhoChangesWhat :=
  ⟨fun _ _ _ h => runAgent_allowed h, fun _ _ _ h => step_of_agenda_cons h, fun _ h => step_of_agenda_nil h,
    fun _ _ _ _ => ⟨rfl, rfl, rfl, rfl, rfl, rfl, rfl, rfl, rfl⟩⟩

/-- Settles O6: the step is the host operation (`step_of_host_todo_cons`), and an access is what its size and its address
say. -/
theorem stepRunsAccess : Obligations.StepRunsAccess := by
  intro s rest agents write nb r v addr size hagenda hawake taken
  have run {op : HostOp} (htodo : s.host.todo = op :: rest) : step s = hostOp op taken :=
    step_of_host_todo_cons hagenda hawake htodo
  refine ⟨fun htodo => ?write, fun htodo hwf => ?register, fun htodo hbad => ?narrow, fun htodo haligned hnone => ?unknown⟩
  case write => exact run htodo
  case register => exact (run htodo).trans (runAccess_of_addr (s := taken) hwf write nb r v)
  case narrow => exact (run htodo).trans (runAccess_of_narrow_or_misaligned hbad write nb v taken)
  case unknown => exact (run htodo).trans (runAccess_of_no_register (s := taken) haligned hnone write nb v)

end Sys2Proof.Machine
end

section
/-! SUPPORT. The invariant of Safety.lean block by block, and that every rule of a register, every engine and every other
agent keeps it (R10, R36, R42, R43, R163, R165, R181, R202, R235). -/

namespace Sys2Proof.Machine

/-! ### The invariant as one part per block -/

/-- The part of the invariant that is about SPI0 (R36, R202). -/
structure Spi0.Sound (p : Params) (b : Spi0) : Prop where
  txq : b.txq.length ≤ p.spi0Depth
  rxq : b.rxq.length ≤ p.spi0Depth
  cs : b.cs ≠ 3

/-- The part of the invariant that is about SPI1 (R41 to R43, R235). -/
structure Spi1.Sound (p : Params) (a : Spi1) : Prop where
  txq : a.txq.length ≤ p.auxDepth
  rxq : a.rxq.length ≤ p.auxDepth
  held : a.clearfifo = true → a.txq = [] ∧ a.rxq = [] ∧ a.srValid = false ∧ a.csheld = false
  speed : a.speed < 2 ^ p.speedWidth ∧ ∀ k, k < p.speedWidth → a.cntl0Other.getLsbD (6 + k) = false

theorem State.inv_iff {s : State} : s.Inv ↔ s.gpio.Sound ∧ s.spi0.Sound s.params ∧ s.spi1.Sound s.params := by
  constructor
  · intro h
    obtain ⟨tx0, rx0, tx1, rx1⟩ := h.queuesBounded
    exact ⟨h.sound, ⟨tx0, rx0, h.noReservedValue.1⟩, ⟨tx1, rx1, h.heldEmpty, h.speedFits⟩⟩
  · rintro ⟨gpio, spi0, spi1⟩
    exact ⟨⟨spi0.txq, spi0.rxq, spi1.txq, spi1.rxq⟩, ⟨spi0.cs, gpio.pud, gpio.arm⟩, spi1.held, gpio.clk, spi1.speed⟩

section
variable {s t : State} {g : Gpio} {b : Spi0} {a : Spi1} {touched : Pin → Bool} {old : State} (h : s.Inv)
include h

theorem State.Inv.spi0Sound : s.spi0.Sound s.params := (State.inv_iff.mp h).2.1

theorem State.Inv.spi1Sound : s.spi1.Sound s.params := (State.inv_iff.mp h).2.2

theorem State.Inv.withGpio (hg : g.Sound) : (s.withGpio g).Inv :=
  State.inv_iff.mpr ⟨hg, h.spi0Sound, h.spi1Sound⟩

theorem State.Inv.withSpi0 (hb : b.Sound s.params) : (s.withSpi0 b).Inv :=
  State.inv_iff.mpr ⟨h.sound, hb, h.spi1Sound⟩

theorem State.Inv.withSpi1 (ha : a.Sound s.params) : (s.withSpi1 a).Inv :=
  State.inv_iff.mpr ⟨h.sound, h.spi0Sound, ha⟩

theorem State.Inv.drawn : s.drawn.Inv := .congr s rfl rfl rfl rfl h

theorem State.Inv.withPads (p : Vector (BitVec 5) 3) : (s.withPads p).Inv := .congr s rfl rfl rfl rfl h

theorem State.Inv.withAux (a : Aux) : (s.withAux a).Inv := .congr s rfl rfl rfl rfl h

theorem State.Inv.withEnv (e : Env) : (s.withEnv e).Inv := .congr s rfl rfl rfl rfl h

theorem State.Inv.logged (e : HistEvent) : (s.logged e).Inv := .congr s rfl rfl rfl rfl h

theorem HostOnly.inv (k : HostOnly s t) : t.Inv := by
  rw [k.eq]
  exact .congr s rfl rfl rfl rfl h

theorem State.Inv.detect : (asyncDetect touched old s).Inv :=
  .of_gpio (s := s) rfl rfl rfl h (h.sound.congr rfl rfl rfl)

theorem State.Inv.latchPins (which : Pin → Bool) : (latchPins which s).Inv := by
  refine .of_gpio (s := s) ?_ ?_ ?_ h (h.sound.latchPins which) <;> rw [latchPins_eq]

theorem State.Inv.settle : (settle s).Inv := h.latchPins _

/-- A change of the GPIO block that leaves the Legacy pull control, its clock and the arming records alone. -/
theorem State.Inv.withGpio_of_pullControl (hp : g.pud = s.gpio.pud) (ha : g.arm = s.gpio.arm)
    (hc : g.pudclk = s.gpio.pudclk) : (s.withGpio g).Inv :=
  h.withGpio (h.sound.congr hp ha hc)

end

/-! ### The Legacy pull control (R163, R165) -/

/-- A change of the control alters the timing mark of an armed latch, not its mode. -/
theorem Arm.violated_eq_armed {m m' : BitVec 2} {t : BitVec 64} {ok : Bool} {a : Arm}
    (h : a.violated m = .armed m' t ok) : ∃ ok', a = .armed m' t ok' := by
  cases a with
  | armed m₀ t₀ ok₀ => cases h; exact ⟨ok₀, rfl⟩
  | none | latched => cases h

theorem Arm.violated_eq_none {m : BitVec 2} {a : Arm} : a.violated m = .none ↔ a = .none := by
  cases a <;> simp [Arm.violated]

theorem State.Inv.gppudApply {s : State} (h : s.Inv) {m : BitVec 2} (hm : m ≠ 3) : (gppudApply m s).Inv := by
  refine h.withGpio ⟨hm, fun p m' t ok armed => ?mode, fun p recorded => h.sound.clk p ?clock⟩
  case mode =>
    rw [pinVector_get] at armed
    obtain ⟨ok', before⟩ := Arm.violated_eq_armed armed
    exact h.sound.arm p m' t ok' before
  case clock =>
    rwa [pinVector_get, ne_eq, Arm.violated_eq_none] at recorded

/-- A rising clock arms with the stored control, which is no reserved code; a falling clock disarms. -/
theorem State.Inv.pudclkEffect {s : State} (h : s.Inv) (clk : PinBits) : (pudclkEffect clk s).Inv := by
  refine .drawn (h.withGpio ⟨h.sound.pud, fun p m t ok armed => ?mode, fun p recorded => ?clock⟩)
  case mode =>
    rw [pinVector_get] at armed
    split at armed
    · cases armed; exact h.sound.pud
    · split at armed
      · cases armed
      · exact h.sound.arm p m t ok armed
  case clock =>
    rw [pinVector_get] at recorded
    split at recorded
    · rename_i rises
      exact (Bool.and_eq_true_iff.mp rises).2
    · split at recorded
      · exact absurd rfl recorded
      · rename_i stays
        simpa [clockFalls, h.sound.clk p recorded] using stays

/-! ### SPI0 (R202, R206, R207, R214) -/

/-- A pop leaves a queue within its depth. -/
theorem length_popped_le {α : Type} {queue rest : List α} {x : α} {depth : Nat} (h : queue.length ≤ depth)
    (hq : queue = x :: rest) : rest.length ≤ depth :=
  Nat.le_of_succ_le (by simpa [hq] using h)

/-- A push on a queue that is not full leaves it within its depth. -/
theorem length_pushed_le {α : Type} {queue : List α} {depth : Nat} (h : queue.length < depth) (x : α) :
    (queue ++ [x]).length ≤ depth := by
  simpa using h

section
variable {p : Params} {b : Spi0} (h : b.Sound p)
include h

theorem Spi0.Sound.csApply {v : Word} (hv : v.extractLsb' 0 2 ≠ 3) : (csApply b v).Sound p := by
  refine ⟨?_, ?_, hv⟩
  · show (if v.getLsbD 4 then [] else b.txq).length ≤ p.spi0Depth
    split
    · exact Nat.zero_le _
    · exact h.txq
  · show (if v.getLsbD 5 then [] else b.rxq).length ≤ p.spi0Depth
    split
    · exact Nat.zero_le _
    · exact h.rxq

theorem Spi0.Sound.pop {x : Byte} {rest : List Byte} (hr : b.rxq = x :: rest) : { b with rxq := rest }.Sound p :=
  ⟨h.txq, length_popped_le h.rxq hr, h.cs⟩

theorem Spi0.Sound.push (hroom : b.txq.length ≠ p.spi0Depth) (x : Byte) : { b with txq := b.txq ++ [x] }.Sound p :=
  ⟨length_pushed_le (h.txq.lt_of_ne hroom) x, h.rxq, h.cs⟩

theorem Spi0.Sound.exchange {x : Byte} {rest : List Byte} (ht : b.txq = x :: rest) (hroom : b.rxq.length < p.spi0Depth)
    (y : Byte) : { b with txq := rest, rxq := b.rxq ++ [y] }.Sound p :=
  ⟨length_popped_le h.txq ht, length_pushed_le hroom y, h.cs⟩

end

/-! ### SPI1 (R235, R244, R245, R252, R254) -/

/-- The fields of SPI1 after a write of `SPI1.CNTL0`, the clear written field by field (R235). -/
theorem cntl0Apply_eq (n : Nat) (a : Spi1) (v : Word) :
    cntl0Apply n a v = { cntl0Fields n a v with
      txq := if v.getLsbD 9 = true then [] else a.txq
      rxq := if v.getLsbD 9 = true then [] else a.rxq
      srValid := if v.getLsbD 9 = true then false else a.srValid
      csheld := if v.getLsbD 9 = true then false else a.csheld } := by
  unfold cntl0Apply
  split <;> rfl

section
variable {p : Params} {a : Spi1} (h : a.Sound p)
include h

/-- With `CLEARFIFO` everything is emptied, without it there is nothing to hold empty. -/
theorem Spi1.Sound.cntl0Apply (v : Word) : (cntl0Apply p.speedWidth a v).Sound p := by
  have fits : (Machine.cntl0Apply p.speedWidth a v).speed < 2 ^ p.speedWidth
      ∧ ∀ k, k < p.speedWidth → (Machine.cntl0Apply p.speedWidth a v).cntl0Other.getLsbD (6 + k) = false :=
    State.SpeedFits.cntl0Apply ({ State.reset with params := p, spi1 := a }) v
  refine ⟨?_, ?_, ?_, fits⟩ <;> rw [cntl0Apply_eq]
  · split
    · exact Nat.zero_le _
    · exact h.txq
  · split
    · exact Nat.zero_le _
    · exact h.rxq
  · intro (clear : v.getLsbD 9 = true)
    simp only [clear, if_true, and_self]

theorem Spi1.Sound.cntl1Apply (v : Word) : (cntl1Apply a v).Sound p := ⟨h.txq, h.rxq, h.held, h.speed⟩

/-- With an entry to pop `CLEARFIFO` is 0. -/
theorem Spi1.Sound.pop {w : Word} {rest : List Word} (hr : a.rxq = w :: rest) : { a with rxq := rest }.Sound p := by
  refine ⟨h.txq, length_popped_le h.rxq hr, fun clear => ?_, h.speed⟩
  obtain ⟨-, empty, -⟩ := h.held clear
  cases hr.symm.trans empty

theorem Spi1.Sound.takeShiftRegister : { a with srValid := false }.Sound p := by
  refine ⟨h.txq, h.rxq, fun clear => ?_, h.speed⟩
  obtain ⟨txEmpty, rxEmpty, -, released⟩ := h.held clear
  exact ⟨txEmpty, rxEmpty, rfl, released⟩

theorem Spi1.Sound.push (hopen : a.clearfifo ≠ true) (hroom : a.txq.length ≠ p.auxDepth) (e : AuxEntry) :
    { a with txq := a.txq ++ [e] }.Sound p :=
  ⟨length_pushed_le (h.txq.lt_of_ne hroom) e, h.rxq, fun clear => absurd clear hopen, h.speed⟩

theorem Spi1.Sound.exchange {e : AuxEntry} {rest : List AuxEntry} (hopen : a.clearfifo ≠ true) (ht : a.txq = e :: rest)
    (received : Word) (hold : Bool) : { a with txq := rest, sr := received, srValid := true, csheld := hold }.Sound p :=
  ⟨length_popped_le h.txq ht, h.rxq, fun clear => absurd clear hopen, h.speed⟩

/-- With a word in the shift register `CLEARFIFO` is 0. -/
theorem Spi1.Sound.receive (hvalid : a.srValid = true) (hroom : a.rxq.length < p.auxDepth) :
    { a with rxq := a.rxq ++ [a.sr], srValid := false }.Sound p := by
  refine ⟨h.txq, length_pushed_le hroom _, fun clear => ?_, h.speed⟩
  obtain ⟨-, -, invalid, -⟩ := h.held clear
  cases hvalid.symm.trans invalid

end

/-! ### The rules of the registers -/

theorem State.Inv.auxReceive {s : State} (h : s.Inv) : (auxReceive s).2.Inv := by
  unfold Machine.auxReceive
  split
  · rename_i queued
    exact h.withSpi1 (h.spi1Sound.pop queued)
  · split
    · exact h.withSpi1 h.spi1Sound.takeShiftRegister
    · exact h.drawn

theorem State.Inv.auxPush {s t : State} {hold : Bool} {v : Word} (h : s.Inv) (hpush : auxPush hold v s = .next t) :
    t.Inv := by
  unfold Machine.auxPush at hpush
  split at hpush
  · cases hpush
  · split at hpush <;> cases hpush
    exact h.withSpi1 (h.spi1Sound.push ‹_› ‹_› _)

/-- A read rule keeps the invariant: it settles, pops a queue or draws. -/
theorem State.Inv.readRule {s : State} (h : s.Inv) (r : Reg) : (readRule r s).2.Inv := by
  cases r with
  | gpfsel n | gpset n | gpclr n | gpeds n | gpren n | gpfen n | gphen n | gplen n | gparen n | gpafen n | gppuppdn n
  | pads n | cs | enb | stat => exact h.drawn
  | gplev n | gppudclk n | gppud => exact h.settle.drawn
  | clo | chi | clk | cntl0 | cntl1 => exact h
  | fifo =>
    simp only [Machine.readRule, fifoRead]
    split
    · rename_i queued
      exact h.withSpi0 (h.spi0Sound.pop queued)
    · exact h.drawn
  | io | txhold => exact h.auxReceive

/-- A write rule that completes keeps the invariant. -/
theorem State.Inv.writeRule {s t : State} {v : Word} {r : Reg} (h : s.Inv) (hw : writeRule v r s = .next t) : t.Inv := by
  cases r with
  | gpfsel n => cases hw; exact .detect (h.settle.withGpio_of_pullControl rfl rfl rfl)
  | gpset n | gpclr n | gppuppdn n => cases hw; exact .detect (h.withGpio_of_pullControl rfl rfl rfl)
  | gplev n => cases hw; exact h
  | gpeds n | gpren n | gpfen n | gphen n | gplen n | gparen n | gpafen n =>
    cases hw; exact h.withGpio_of_pullControl rfl rfl rfl
  | gppud =>
    simp only [Machine.writeRule, gppudWrite, gppudStore] at hw
    split at hw <;> cases hw
    exact h.settle.gppudApply ‹_›
  | gppudclk n => cases hw; exact .detect (h.settle.pudclkEffect _)
  | pads g =>
    cases hw
    unfold padsStore
    split
    · exact h.withPads _
    · exact h
  | clo | chi | stat => cases hw
  | cs =>
    simp only [Machine.writeRule, csWrite, csStore] at hw
    split at hw
    · cases hw
    · split at hw <;> cases hw
      exact h.withSpi0 (h.spi0Sound.csApply ‹_›)
  | fifo =>
    simp only [Machine.writeRule, fifoWrite, fifoStore] at hw
    split at hw
    · cases hw
    · split at hw <;> cases hw
      exact h.withSpi0 (h.spi0Sound.push ‹_› _)
  | clk =>
    simp only [Machine.writeRule, clkWrite, clkStore] at hw
    split at hw <;> cases hw
    exact h.withSpi0 ⟨h.spi0Sound.txq, h.spi0Sound.rxq, h.spi0Sound.cs⟩
  | enb => cases hw; exact h.withAux _
  | cntl0 => cases hw; exact h.withSpi1 (h.spi1Sound.cntl0Apply _)
  | cntl1 => cases hw; exact h.withSpi1 (h.spi1Sound.cntl1Apply _)
  | io | txhold => exact h.auxPush hw

/-- What an instruction that completes did: the read rule or the write rule of its register, then the value returned and
`LAST_NB` (R130, R131). -/
theorem exec_next {i : Instr} {s t : State} (h : exec i s = .next t) :
    ∃ u r, (u = (readRule i.reg s).2 ∨ writeRule i.data i.reg s = .next u)
      ∧ t = (u.withResult r).withLastNb (lastNbAfter i.reg.block i.nb) := by
  obtain ⟨e, -⟩ | ⟨e, -⟩ := instr_cases i <;> rw [e] at h
  · obtain ⟨-, rfl⟩ := exec_rd_next h
    exact ⟨_, _, .inl rfl, rfl⟩
  · obtain ⟨-, u, hu, rfl⟩ := exec_wr_next h
    exact ⟨u, _, .inr hu, rfl⟩

theorem State.Inv.exec {s t : State} {i : Instr} (h : s.Inv) (he : exec i s = .next t) : t.Inv := by
  obtain ⟨u, r, rule, rfl⟩ := exec_next he
  have hu : u.Inv := rule.elim (fun read => read ▸ h.readRule _) h.writeRule
  exact .congr u rfl rfl rfl rfl hu

/-! ### The agents -/

theorem State.Inv.hostStep {s t : State} (h : s.Inv) (hs : hostStep s = .next t) : t.Inv := by
  obtain hostOnly | ⟨_, _, _, before, transaction, after⟩ := hostStep_next hs
  · exact hostOnly.inv h
  · exact after.inv ((before.inv h).exec transaction)

theorem State.Inv.sampleStep {s : State} (h : s.Inv) : (sampleStep s).Inv :=
  .drawn (h.settle.withGpio_of_pullControl rfl rfl rfl)

theorem State.Inv.setExtStep {s : State} (h : s.Inv) (q : Pin) (l : Ext) : (setExtStep q l s).Inv :=
  .detect (h.settle.withEnv _)

/-- `SPI0.SHIFT` is enabled only with a byte to send and room for the one received (R214). -/
theorem State.Inv.spi0ShiftStep {s t : State} (h : s.Inv) (hs : spi0ShiftStep s = .next t) : t.Inv := by
  obtain ⟨-, rfl⟩ | ⟨enabled, -, b, rest, queued, rfl⟩ := spi0ShiftStep_next hs
  · exact h
  · simp only [State.spi0ShiftEnabled, Bool.and_eq_true, decide_eq_true_eq] at enabled
    exact ((h.withSpi0 (h.spi0Sound.exchange queued enabled.2 _)).logged _).drawn

/-- `SPI1.SHIFT` is enabled only while `CLEARFIFO` is 0 (R252). -/
theorem State.Inv.spi1ShiftStep {s t : State} (h : s.Inv) (hs : spi1ShiftStep s = .next t) : t.Inv := by
  obtain ⟨-, rfl⟩ | ⟨enabled, -, -, -, -, e, rest, queued, -, rfl⟩ := spi1ShiftStep_next hs
  · exact h
  · have hopen : s.spi1.clearfifo ≠ true := fun clear => by simp [State.spi1ShiftEnabled, clear] at enabled
    exact ((h.withSpi1 (h.spi1Sound.exchange hopen queued _ _)).logged _).drawn

/-- `SPI1.RXPUSH` is enabled only with a word in the shift register and room for it (R254). -/
theorem State.Inv.rxPushStep {s : State} (h : s.Inv) : (rxPushStep s).Inv := by
  unfold Machine.rxPushStep
  split
  · rename_i enabled
    simp only [State.rxPushEnabled, Bool.and_eq_true, decide_eq_true_eq] at enabled
    exact h.withSpi1 (h.spi1Sound.receive enabled.1.2 enabled.2)
  · exact h

theorem State.Inv.runAgent {s t : State} {a : Agent} (h : s.Inv) (hs : runAgent a s = .next t) : t.Inv := by
  cases a with
  | host => exact h.hostStep hs
  | timer => cases hs; exact .congr s rfl rfl rfl rfl h
  | sample => cases hs; exact h.sampleStep
  | pudLatch p => cases hs; exact h.latchPins _
  | spi0Shift => exact h.spi0ShiftStep hs
  | spi1Shift => exact h.spi1ShiftStep hs
  | rxPush => cases hs; exact h.rxPushStep
  | setExt p l => cases hs; exact h.setExtStep p l
  | sleep d => cases hs; exact (HostOnly.withHost s _).inv h
  | restart => cases hs; exact (restartStep_hostOnly s).inv h

theorem State.Inv.scheduled {s : State} (h : s.Inv) : s.scheduled.Inv := by
  unfold State.scheduled
  split
  · exact .congr s rfl rfl rfl rfl h
  · exact h.drawn

/-- Settles O60: choosing the agent touches no block, and whichever agent it is keeps the invariant
(`State.Inv.runAgent`). -/
theorem stepKeepsInvariant : Obligations.StepKeepsInvariant := fun _ _ h hs => h.scheduled.runAgent hs

/-- Settles O59: at reset every queue is empty, nothing is armed and `SPEED` is 0. -/
theorem resetInvariant : Obligations.ResetInvariant := by
  refine State.inv_iff.mpr ⟨⟨by decide, fun p m t ok armed => ?mode, fun p recorded => ?clock⟩,
    ⟨Nat.zero_le _, Nat.zero_le _, by decide⟩,
    ⟨Nat.zero_le _, Nat.zero_le _, nofun, Nat.two_pow_pos _, fun k _ => BitVec.getLsbD_zero⟩⟩
  case mode => exact absurd ((vector_replicate_get _ p).symm.trans armed) nofun
  case clock => exact absurd (vector_replicate_get _ p) recorded

end Sys2Proof.Machine
end

section
/-! SUPPORT. What a transaction to one block leaves alone (R33, R62, R86), the level register (R25, R146, R147), `SetExt`
(R60, R176), the effective divider of SPI0 (R35), the control register of SPI1 (R234, R235), and the state after reset and
after a restart of the software (R50, R371). -/

namespace Sys2Proof.Machine

/-- Settles O12: the rule of a register changes its own block at most (`readRule_frame`, `writeRule_frame`). -/
theorem blockIsolation : Obligations.BlockIsolation := by
  intro i s t h
  obtain ⟨u, r, rule, rfl⟩ := exec_next h
  have f : BlockFrame i.reg.block s u := rule.elim (fun read => read ▸ readRule_frame _ _) writeRule_frame
  exact ⟨f.params, f.cnt, f.env, f.hist, f.host, f.agenda, f.gpio, f.pads, f.spi0, f.aux, f.spi1⟩

/-! ### Levels (R25, R146) -/

section
variable {s : State} {p : Pin}

theorem level_of_output (hf : s.gpio.fsel.get p = .output) : s.level p = Level.ofBool (s.gpio.out.getLsbD p) := by
  simp only [State.level, hf]

theorem level_of_driven_high (hf : s.gpio.fsel.get p = .input) (he : s.env.ext.get p = .high) : s.level p = .high := by
  simp only [State.level, hf, he]

theorem level_of_driven_low (hf : s.gpio.fsel.get p = .input) (he : s.env.ext.get p = .low) : s.level p = .low := by
  simp only [State.level, hf, he]

theorem level_of_pulled_up (hf : s.gpio.fsel.get p = .input) (he : s.env.ext.get p = .z)
    (hp : s.pullState p = some .up) : s.level p = .high := by
  simp only [State.level, hf, he, hp]

theorem level_of_pulled_down (hf : s.gpio.fsel.get p = .input) (he : s.env.ext.get p = .z)
    (hp : s.pullState p = some .down) : s.level p = .low := by
  simp only [State.level, hf, he, hp]

/-- A level that is no draw is what an evaluation gives. -/
theorem levels_of_level {b : Bool} (h : s.level p = Level.ofBool b) (d : PinBits) : (s.levels d).getLsbD p = b := by
  rw [levels_getLsbD, h]
  cases b <;> rfl

end

/-- Settles O17: the read is the pair's image of the levels of the settled state. -/
theorem levelRegister : Obligations.LevelRegister := by
  intro n nb w s admits
  refine ⟨by rw [exec_wr_of_admits nb w admits]; rfl, _, _, exec_rd_of_admits nb admits, rfl, ?frame, rfl,
    fun j hj reserved => pairWord_reserved _ _ _ j hj reserved, fun p hp => ?pin⟩
  case frame =>
    unfold OnlyGpio
    simp only [readRule, gplevRead, levelRead, readDrawing]
    rw [settle_eq]
    rfl
  case pin =>
    have reads {b : Bool} (h : (settle s).level p = Level.ofBool b) :
        (readRule (.gplev n) s).1.getLsbD (p.val % 32) = b :=
      (pairWord_getLsbD n _ _ p hp).trans (levels_of_level h _)
    rw [← settle_fsel s, ← settle_out s, ← settle_env s]
    exact ⟨fun hf => reads (level_of_output hf), fun hf he => reads (level_of_driven_high hf he),
      fun hf he => reads (level_of_driven_low hf he), fun hf he hp => reads (level_of_pulled_up hf he hp),
      fun hf he hp => reads (level_of_pulled_down hf he hp)⟩

/-! ### `SetExt` (R60) -/

/-- Settles O29: `settle()` and the detectors leave the outside world alone, and the detectors watch pin `q` only. -/
theorem setExtStep_frame : Obligations.SetExtStep := by
  intro s q l t
  have eds (p : Pin) := asyncDetect_eds (fun p => p == q) (settle s)
    ((settle s).withEnv { (settle s).env with ext := (settle s).env.ext.set q l }) p
  refine ⟨?frame, ?slaves, fun p => ?driver, ?gpio, fun p set => ?kept, fun p other => ?unwatched⟩
  case frame => apply State.ext <;> simp [t, setExtStep, setExtApply]
  case slaves => simp [t, setExtStep, setExtApply]
  case driver => simp [t, setExtStep, setExtApply, vector_set_get, eq_comm]
  case gpio => apply Gpio.ext <;> simp [t, setExtStep, setExtApply]
  case kept => exact (eds p).trans (by simp [set])
  case unwatched => exact (eds p).trans (by simp [other])

/-! ### The effective divider (R35) -/

/-- A value without its low bit, as a number. -/
theorem clearLowBit_toNat (c : BitVec 16) : (c &&& 0xFFFE#16).toNat = c.toNat - c.toNat % 2 := by
  have mask : c &&& 0xFFFE#16 = c >>> 1 <<< 1 := by
    apply BitVec.eq_of_getLsbD_eq
    intro i hi
    have bit : (0xFFFE#16).getLsbD i = decide (1 ≤ i) := by interval_cases i <;> rfl
    rw [highPart_getLsbD, BitVec.getLsbD_and, bit, Bool.and_comm]
  rw [mask, BitVec.toNat_shiftLeft, BitVec.toNat_ushiftRight, Nat.shiftRight_eq_div_pow, Nat.shiftLeft_eq]
  have := c.isLt
  omega

theorem Spi0.cdivEff_eq (p : Spi0) :
    p.cdivEff = if p.cdiv.toNat < 2 then 65536 else p.cdiv.toNat - p.cdiv.toNat % 2 := by
  have zero : p.cdiv &&& 0xFFFE#16 = 0 ↔ p.cdiv.toNat < 2 := by
    rw [← BitVec.toNat_inj, clearLowBit_toNat]
    change _ = 0 ↔ _
    omega
  rw [Spi0.cdivEff, clearLowBit_toNat]
  simp only [zero]

/-- Settles O38, on the divider as a number (`Spi0.cdivEff_eq`). -/
theorem effectiveDivider : Obligations.EffectiveDivider := by
  intro p
  have := p.cdiv.isLt
  rw [Spi0.cdivEff_eq]
  split <;> omega

/-! ### `SPI1.CNTL0` (R234, R235) -/

theorem cntl0Word_cntl0Apply (n : Nat) (a : Spi1) (v : Word) : cntl0Word (cntl0Apply n a v) = v := by
  rw [cntl0Apply_eq]
  exact cntl0Word_of n _ v rfl rfl rfl rfl rfl rfl rfl rfl rfl

/-- The read of `SPI1.CNTL0` returns the image and touches nothing else (R234). -/
theorem exec_rd_cntl0 {s : State} {x : Word} (nb : Bool) (h : s.Admits .cntl0)
    (hx : s.params.layout.cntl0.regWord (cntl0Word s.spi1) = x) :
    exec (Instr.rd nb .cntl0) s = .next { s with result := some x, lastNb := lastNbAfter .spi1 nb } := by
  subst hx
  exact exec_rd_of_admits nb h

/-- After a transaction to its block a register is still accessible, when the transaction kept the generation and the
enable. -/
theorem State.Admits.again {s t : State} {r : Reg} {nb : Bool} (h : s.Admits r) (hp : t.params = s.params)
    (ha : t.aux = s.aux) (hl : t.lastNb = lastNbAfter r.block nb) : t.Admits r := by
  refine ⟨by rw [hp]; exact h.exists_, ?_, by rw [ha]; exact h.gate⟩
  rw [hl]
  cases nb
  · exact .inl rfl
  · exact .inr rfl

/-- Settles O41: the image of the register holds its fields (`cntl0Word_fields`) and the image of the fields written is the
word written (`cntl0Word_cntl0Apply`). -/
theorem spi1Control0 : Obligations.Spi1Control0 := by
  intro nb nb' v s admits w n
  refine ⟨⟨speedWidth_le _, lt_two_pow_iff_speedWidth⟩, fun layout fits => ?read, ?write⟩
  case read =>
    refine ⟨_, exec_rd_cntl0 nb admits rfl, ?_⟩
    rw [BitPlaces.tableWord_regWord layout]
    exact cntl0Word_fields (speedWidth_le _) fits.1 fits.2
  case write =>
    refine ⟨_, exec_wr_of_admits nb v admits, rfl, cntl0Apply_eq n s.spi1 w, fun layout => ?_⟩
    have back : s.params.layout.cntl0.regWord (cntl0Word (cntl0Apply n s.spi1 w)) = v := by
      rw [cntl0Word_cntl0Apply, BitPlaces.regWord_tableWord layout]
    exact exec_rd_cntl0 nb' (admits.again (nb := nb) rfl rfl rfl) back

/-! ### Reset and restart (R50, R371) -/

theorem DriverCtx.reset_unmapped (b : Block) : DriverCtx.reset.handles.mapped b = false := by cases b <;> rfl

/-- Settles O58: the reset values of R46, R47, R50 and R62, and a restart gives the host those of `HostSw.reset`. -/
theorem resetState : Obligations.ResetState :=
  ⟨fun p => vector_replicate_get _ p, rfl, rfl, DriverCtx.reset_unmapped, rfl, rfl, rfl, resetInvariant.queuesBounded,
    fun s => ⟨restartStep s, rfl, rfl, rfl, rfl, DriverCtx.reset_unmapped, rfl, rfl, rfl⟩⟩

end Sys2Proof.Machine
end

section
/-! SUPPORT. The order rule across blocks (R80): what line `order` of a transaction makes of an open non-barriered run,
for the generic transaction and through it for every instruction. -/

namespace Sys2Proof.Machine

/-! ### The generic transaction -/

/-- Mapping the next state makes no fault. -/
theorem mapNext_ne_fault {o : Out} {f : Fault} (h : o ≠ .fault f) (g : State → State) : mapNext g o ≠ .fault f := by
  cases o with
  | next | refused => nofun
  | fault => exact h

section
variable {b : Block} {nb : Bool} {perform : State → Out} {s : State}

/-- A run open to another block stops the transaction before `gate` and `perform`. -/
theorem transact_of_open_elsewhere {pending : Block} (hopen : s.lastNb = some pending) (other : pending ≠ b) :
    transact b nb perform s = .fault (.crossBlockWithoutBarrier pending b) := by
  simp only [transact, hopen, if_neg other]

/-- Line `gate` refuses and does not fault. -/
theorem gated_ne_fault {f : Fault} (h : perform s ≠ .fault f) : gated b nb perform s ≠ .fault f := by
  unfold gated
  split
  · exact mapNext_ne_fault h _
  · nofun

end

/-! ### Every instruction -/

/-- An instruction of the generation at hand is the generic transaction to the block of its register, around a rule that
does not fault (R130, R131). -/
theorem exec_eq_transact {i : Instr} {s : State} (h : i.wf s.params.variant = true) :
    ∃ perform : State → Out, (∀ f : Fault, perform s ≠ .fault f) ∧ exec i s = transact i.reg.block i.nb perform s := by
  have here := (wf_iff i _).mp h
  obtain ⟨e, -⟩ | ⟨e, -⟩ := instr_cases i
  · refine ⟨fun s => .next ((readRule i.reg s).2.withResult (some (readRule i.reg s).1)), nofun, ?_⟩
    rw [congrArg exec e, exec_rd, guarded_of_variant here, busRead]
  · refine ⟨fun s => mapNext (·.withResult none) (writeRule i.data i.reg s),
      fun f => mapNext_ne_fault (writeRule_ne_fault _ _ s f) _, ?_⟩
    rw [congrArg exec e, exec_wr, guarded_of_variant here, busWrite]

/-- Settles O7: of the lines of the generic transaction only `order` faults, and one that completes sets `LAST_NB` last
(`exec_next`). -/
theorem orderAcrossBlocks : Obligations.OrderAcrossBlocks := by
  intro i s wf
  obtain ⟨perform, noFault, asTransaction⟩ := exec_eq_transact wf
  refine ⟨fun pending hopen other => ?elsewhere, fun admitted f => ?admitted, fun t completes => ?completes⟩
  case elsewhere => rw [asTransaction, transact_of_open_elsewhere hopen other]
  case admitted =>
    rw [asTransaction, transact_of_order admitted]
    exact gated_ne_fault (noFault f)
  case completes =>
    obtain ⟨u, r, -, rfl⟩ := exec_next completes
    rfl

end Sys2Proof.Machine
end

section
/-! SUPPORT. The transaction word (R101): all the decoder can answer, in the order of its checks (R347), and that decoder
and encoder undo each other; the statements about the encoding. -/

namespace Sys2Proof

/-! ### The decoder -/

/-- Bits 61:56 are not 0, or the word is a read with `DATA` not 0 (R101). -/
def TWord.Malformed (w : TWord) : Prop := w.zero ≠ 0 ∨ (w.isWrite = false ∧ w.data ≠ 0)

/-- The transaction of a word at the address of register `r`. -/
def TWord.instr (w : TWord) (r : Reg) : Instr := if w.isWrite then Instr.wr w.nb w.data r else Instr.rd w.nb r

/-- The decoder's four answers, each with what its checks found. -/
theorem decode_cases (m : AddrMap) (w : TWord) :
    (w.Malformed ∧ decode m w = .error .malformed)
    ∨ (¬ w.Malformed ∧ w.addr.toNat % 4 ≠ 0 ∧ decode m w = .error .misaligned)
    ∨ (¬ w.Malformed ∧ w.addr.toNat % 4 = 0 ∧ (∀ r, m.addr r ≠ w.addr.toNat) ∧ decode m w = .error .unknownRegister)
    ∨ (¬ w.Malformed ∧ ∃ r, m.addr r = w.addr.toNat ∧ decode m w = .ok (w.instr r)) := by
  by_cases malformed : w.Malformed
  · exact .inl ⟨malformed, if_pos malformed⟩
  have pastFirst : decode m w = _ := if_neg malformed
  by_cases aligned : w.addr.toNat % 4 = 0
  case neg => exact .inr (.inl ⟨malformed, aligned, pastFirst.trans (if_pos aligned)⟩)
  rw [if_neg (not_not_intro aligned)] at pastFirst
  cases found : m.regAt w.addr.toNat with
  | none =>
    rw [found] at pastFirst
    exact .inr (.inr (.inl ⟨malformed, aligned, AddrMap.regAt_eq_none.mp found, pastFirst⟩))
  | some r =>
    rw [found] at pastFirst
    exact .inr (.inr (.inr ⟨malformed, r, AddrMap.addr_of_regAt found, pastFirst⟩))

/-- A word is accepted only in canonical form and at the address of a register. -/
theorem decode_eq_ok {m : AddrMap} {w : TWord} {i : Instr} (h : decode m w = .ok i) :
    w.zero = 0 ∧ (w.isWrite = false → w.data = 0) ∧ ∃ r, m.addr r = w.addr.toNat ∧ i = w.instr r := by
  obtain ⟨-, e⟩ | ⟨-, -, e⟩ | ⟨-, -, -, e⟩ | ⟨canonical, r, addr, e⟩ := decode_cases m w <;> cases h.symm.trans e
  simp only [TWord.Malformed, not_or, not_and, not_not] at canonical
  exact ⟨canonical.1, canonical.2, r, addr, rfl⟩

/-- `ADDR[1:0]` is the rest of the address by 4 (R101). -/
theorem TWord.lowAddr_eq_zero_iff (w : TWord) : w.extractLsb' 32 2 = 0 ↔ w.addr.toNat % 4 = 0 := by
  have rest : (w.extractLsb' 32 2).toNat = w.addr.toNat % 4 := by
    simp only [TWord.addr, BitVec.extractLsb'_toNat]
    omega
  rw [← BitVec.toNat_inj, rest]
  rfl

/-! ### The encoder -/

/-- What the transaction of a word names, when the word has no datum on a read. -/
theorem TWord.instr_fields {w : TWord} (hd : w.isWrite = false → w.data = 0) (r : Reg) :
    (w.instr r).nb = w.nb ∧ (w.instr r).reg = r ∧ (w.instr r).isWrite = w.isWrite ∧ (w.instr r).data = w.data := by
  unfold TWord.instr
  cases write : w.isWrite with
  | true => exact Machine.wr_fields w.nb w.data r
  | false =>
    rw [hd write]
    exact Machine.rd_fields w.nb r

/-- A word in canonical form at the address of a register is the encoding of its transaction there. -/
theorem encode_instr {m : AddrMap} {w : TWord} {r : Reg} (hz : w.zero = 0) (hd : w.isWrite = false → w.data = 0)
    (ha : m.addr r = w.addr.toNat) : encode m (w.instr r) = w := by
  obtain ⟨nb, reg, isWrite, data⟩ := TWord.instr_fields hd r
  rw [encode, isWrite, nb, reg, data, ha, BitVec.ofNat_toNat, BitVec.setWidth_eq]
  exact TWord.eq_of_fields (TWord.isWrite_pack ..) (TWord.nb_pack ..) ((TWord.zero_pack ..).trans hz.symm)
    (TWord.addr_pack ..) (TWord.data_pack ..)

/-- The transaction of an encoded word at the instruction's register is the instruction. -/
theorem instr_encode (m : AddrMap) (i : Instr) : (encode m i).instr i.reg = i := by
  obtain ⟨e, read, -⟩ | ⟨e, write⟩ := Machine.instr_cases i
  · simpa [TWord.instr, encode, read] using e.symm
  · simpa [TWord.instr, encode, write] using e.symm

/-! ### The statements -/

/-- Settles O1: the encoded word is in canonical form at the address of the register (`decode_at`), and its fields name
the instruction (`instr_encode`). -/
theorem decodeOfEncode : Obligations.DecodeOfEncode := by
  intro m hm i
  have canonical : (encode m i).isWrite = false → (encode m i).data = 0 := by
    obtain ⟨-, -, data⟩ | ⟨-, write⟩ := Machine.instr_cases i
    · exact fun _ => (TWord.data_pack ..).trans data
    · simp [encode, write]
  calc decode m (encode m i)
      _ = .ok ((encode m i).instr i.reg) := decode_at hm (TWord.zero_pack ..) canonical (encode_addr hm i)
      _ = .ok i := by rw [instr_encode]

/-- Settles O2: an accepted word is in canonical form, and its fields are those of the instruction (`encode_instr`). -/
theorem encodeOfDecode : Obligations.EncodeOfDecode := by
  intro m w i h
  obtain ⟨zero, data, r, addr, rfl⟩ := decode_eq_ok h
  exact encode_instr zero data addr

/-- Settles O3: the four answers of `decode_cases` exclude each other, since a register's address is aligned and no
other register has it. -/
theorem decodeRefusals : Obligations.DecodeRefusals := by
  intro m w hm malformed
  change (_ ↔ w.Malformed) ∧ (_ ↔ ¬ w.Malformed ∧ _) ∧ (_ ↔ ¬ w.Malformed ∧ _ ∧ ∀ r, m.addr r ≠ w.addr.toNat) ∧
    ∀ r, ¬ w.Malformed → m.addr r = w.addr.toNat → decode m w = .ok (w.instr r)
  have alignedAt : ∀ r, m.addr r = w.addr.toNat → w.addr.toNat % 4 = 0 := fun r addr =>
    addr ▸ (AddrMap.addr_bounds hm r).1
  rw [Ne, TWord.lowAddr_eq_zero_iff]
  obtain ⟨bad, e⟩ | ⟨good, odd, e⟩ | ⟨good, aligned, unknown, e⟩ | ⟨good, r, addr, e⟩ := decode_cases m w
  · simp [e, bad]
  · have unknown : ∀ r, m.addr r ≠ w.addr.toNat := fun r addr => odd (alignedAt r addr)
    simp [e, good, odd, unknown]
  · simp [e, good, aligned, unknown]
  · have only : ∀ q, m.addr q = w.addr.toNat → q = r := fun q hq => AddrMap.addr_injective hm (hq.trans addr.symm)
    refine ⟨?malformed, ?misaligned, ?unknown, fun q _ hq => by rw [e, only q hq]⟩
    case malformed => simp [e, good]
    case misaligned => simp [e, alignedAt r addr]
    case unknown => exact iff_of_false (by simp [e]) fun ⟨_, _, noRegister⟩ => noRegister r addr

/-- Settles O4: on sixteen closed words the decoder is run. -/
theorem decodesPublishedWords : Obligations.DecodesPublishedWords := by
  unfold Obligations.DecodesPublishedWords
  decide

end Sys2Proof

namespace Sys2Proof.Machine

/-! ### Groups on the SPI1 wire (R115, R248, R249) -/

/-- Byte `k` of a group stands in the data word below bit `24 - 8k` (R115). -/
theorem packGroup_byte (g : List Byte) {k : Nat} (h : k < 3) :
    (packGroup g).extractLsb' (24 - 8 * (k + 1)) 8 = g.getD k 0 := by
  obtain rfl | rfl | rfl : k = 0 ∨ k = 1 ∨ k = 2 := by omega
  · rw [packGroup, slice_append_hi _ _ _ _ (by decide), slice_append_hi _ _ _ _ (by decide),
      slice_append_lo _ _ _ _ (by decide)]
    exact slice_full _
  · rw [packGroup, slice_append_hi _ _ _ _ (by decide), slice_append_lo _ _ _ _ (by decide)]
    exact slice_full _
  · rw [packGroup, slice_append_lo _ _ _ _ (by decide)]
    exact slice_full _

/-- In variable-width mode the bits shifted out start at bit 23 (R248). -/
theorem shiftedBits_slice (w : Word) {n a k : Nat} (h : a + k ≤ n) (hn : n ≤ 24) :
    ((shiftedBits true n w).setWidth 32).extractLsb' a k = w.extractLsb' (24 - n + a) k := by
  apply slice_eq
  intro i hi
  simp [shiftedBits, hi, show a + i < 32 by omega, show a + i < 24 by omega, show a + i < n by omega, Nat.add_assoc]

/-- A group packed, shifted out and echoed back (R115, R248, R249). -/
theorem unpackGroup_shiftedBits_packGroup (g : List Byte) (h : g.length ≤ 3) :
    unpackGroup g.length ((shiftedBits true (8 * g.length) (packGroup g)).setWidth 32) = g := by
  apply List.ext_getElem
  · simp [unpackGroup]
  intro k hk hk'
  simp only [unpackGroup]
  rw [List.getElem_map, List.getElem_range, shiftedBits_slice _ (by omega) (by omega),
    show 24 - 8 * g.length + 8 * (g.length - 1 - k) = 24 - 8 * (k + 1) by omega, packGroup_byte g (by omega)]
  simp [hk']

/-- Settles O54: the bytes come back as they were packed, and reordering a byte twice gives the byte. -/
theorem echoedGroup : Obligations.EchoedGroup := by
  intro o g _ atMostThree
  have echoed := unpackGroup_shiftedBits_packGroup (g.map (orderByte o)) (by simpa using atMostThree)
  rw [List.length_map] at echoed
  rw [groupWord, echoed]
  simp [Function.comp_def]

end Sys2Proof.Machine
end

section
/-! SUPPORT. Register access (R130, R131): a transaction word is the instruction it decodes to (R342), the barrier form
of a transaction shows in `LAST_NB` only (R132), what a completed transaction returns, and `set_bits` (R134, R135). -/

namespace Sys2Proof.Machine

/-! ### Transaction words (R130, R131, R342) -/

theorem runWord_of_decode_ok {w : TWord} {i : Instr} {s : State} (h : decode s.params.addrMap w = .ok i) :
    runWord w s = exec i s := by
  simp only [runWord, h]

theorem runWord_of_decode_error {w : TWord} {e : DecodeError} {s : State} (h : decode s.params.addrMap w = .error e) :
    runWord w s = .refused (decodeRefusal e) := by
  simp only [runWord, h]

/-- Settles O5: the step is the host operation (`step_of_host_todo_cons`), which is `runWord`, and that is what the word
decodes to. -/
theorem stepRunsDecodedWord : Obligations.StepRunsDecodedWord := by
  intro s w rest agents hagenda hawake htodo taken
  have run : step s = runWord w taken := step_of_host_todo_cons hagenda hawake htodo
  have refuses {e : DecodeError} (h : decode s.params.addrMap w = .error e) : step s = .refused (decodeRefusal e) :=
    run.trans (runWord_of_decode_error (s := taken) h)
  exact ⟨fun _ decodes => run.trans (runWord_of_decode_ok (s := taken) decodes), refuses, refuses, refuses⟩

/-! ### The two barrier forms (R132) -/

/-- The checks and the rule of a transaction do not see its barrier form: only `transact` does. -/
theorem exec_ofReg (write : Bool) (v : Word) (r : Reg) : ∃ perform : State → Out, ∀ (nb : Bool) (s : State),
    exec (Instr.ofReg write nb v r) s = guarded (variantOf r) (transact r.block nb perform) s := by
  cases write with
  | false => exact ⟨_, fun nb s => exec_rd nb r s⟩
  | true => exact ⟨_, fun nb s => exec_wr nb v r s⟩

/-- The last thing a transaction does is to set `LAST_NB`, so forgetting it there forgets the barrier form. -/
theorem gated_forget_lastNb (b : Block) (nb : Bool) (perform : State → Out) (s : State) :
    mapNext (·.withLastNb none) (gated b nb perform s) =
      if s.gateOk b then mapNext (·.withLastNb none) (perform s) else .refused .spi1Disabled := by
  unfold gated
  split
  · cases perform s <;> rfl
  · rfl

/-- With `LAST_NB` set aside, the generic transaction ends the same in both forms: line `order` looks at the form of the
transactions before it, not at its own. -/
theorem transact_forget_lastNb (b : Block) (nb nb' : Bool) (perform : State → Out) (s : State) :
    mapNext (·.withLastNb none) (transact b nb perform s) = mapNext (·.withLastNb none) (transact b nb' perform s) := by
  have sameGated : mapNext (·.withLastNb none) (gated b nb perform s) =
      mapNext (·.withLastNb none) (gated b nb' perform s) := by
    rw [gated_forget_lastNb, gated_forget_lastNb]
  by_cases order : s.lastNb = none ∨ s.lastNb = some b
  · rw [transact_of_order order, transact_of_order order, sameGated]
  · obtain ⟨pending, hopen⟩ := Option.ne_none_iff_exists'.mp (not_or.mp order).1
    have other : pending ≠ b := fun same => order (.inr (same ▸ hopen))
    rw [transact_of_open_elsewhere hopen other, transact_of_open_elsewhere hopen other]

/-- The check of the generation keeps a transformation of the outcome. -/
theorem mapNext_guarded (f : State → State) (o : Option PudVariant) (m : State → Out) (s : State) :
    mapNext f (guarded o m s) = guarded o (fun s => mapNext f (m s)) s := by
  cases o with
  | none => rfl
  | some v =>
    simp only [guarded, onlyIn]
    split <;> rfl

/-- Settles O10: both forms are the same rule under the same checks (`exec_ofReg`), so setting `LAST_NB` aside leaves no
difference (`transact_forget_lastNb`). -/
theorem barrierFormChangesNothing : Obligations.BarrierFormChangesNothing := by
  intro write v r s
  obtain ⟨perform, asTransaction⟩ := exec_ofReg write v r
  simp only [asTransaction, mapNext_guarded, transact_forget_lastNb r.block true false perform]

/-! ### What a transaction returns (R130, R131) -/

/-- Settles O11: a read that completes returned what its rule gave (`exec_rd_next`), a write nothing (`exec_wr_next`). -/
theorem readsReturnWritesDoNot : Obligations.ReadsReturnWritesDoNot := by
  intro i s t completes
  obtain ⟨e, read, -⟩ | ⟨e, write⟩ := instr_cases i <;> rw [e] at completes
  · obtain ⟨-, rfl⟩ := exec_rd_next completes
    exact ⟨fun write => absurd (read.symm.trans write) nofun, fun _ => ⟨(readRule i.reg s).1, rfl⟩⟩
  · obtain ⟨-, u, -, rfl⟩ := exec_wr_next completes
    exact ⟨fun _ => rfl, fun read => absurd (read.symm.trans write) nofun⟩

/-! ### `set_bits` (R134, R135) -/

/-- After its read completes with a value, a sequence goes on with that value. -/
theorem hostOp_rd_of_next {nb : Bool} {r : Reg} {s t : State} {v : Word} (completes : exec (Instr.rd nb r) s = .next t)
    (returned : t.result = some v) (k : ReadCont) : hostOp (.rd nb r k) s = .next (resume k v t) := by
  simp only [hostOp, completes, mapNext_next, resumeRead, returned]

/-- Settles O49: the merge bit by bit (`maskedMerge_getLsbD`), and the read of `set_bits` goes on with pushing its write. -/
theorem setBitsMerge : Obligations.SetBitsMerge :=
  ⟨fun t value mask j _ => maskedMerge_getLsbD t value mask j,
    fun _ _ nb r value mask _ completes returned => hostOp_rd_of_next completes returned (.setBits nb r value mask)⟩

end Sys2Proof.Machine
end

section
/-! SUPPORT. The registers of the GPIO block and the pads (R140 to R171), the Legacy pull latch (R181) and event detection
(R175, R176): what a transaction to the block completes with, and the statements of spec/41_gpio.md. -/

namespace Sys2Proof.Machine

/-! ### Transactions to the block -/

section
variable {s u : State} {r r' : Reg} {v x : Word} (nb : Bool)

/-- Registers of one block and one generation are admitted together. -/
theorem State.Admits.sibling (h : s.Admits r) (block : r'.block = r.block) (variant : variantOf r' = variantOf r) :
    s.Admits r' :=
  admits_of (variant ▸ admits_variant h) (block ▸ h.order) (block ▸ h.gate)

/-- What a transaction adds around a rule that kept to the block stays within `OnlyGpio`. -/
theorem BlockFrame.onlyGpio (h : BlockFrame .gpio s u) (result : Option Word) :
    OnlyGpio nb s ((u.withResult result).withLastNb (lastNbAfter .gpio nb)) := by
  apply State.ext <;> simp [h.params, h.cnt, h.env, h.hist, h.host, h.agenda, h.pads, h.spi0, h.aux, h.spi1]

/-- A read transaction completes with what its read rule gives (R130). -/
theorem exec_rd_gpio (admits : s.Admits r) (block : r.block = .gpio) :
    ∃ t : State, exec (Instr.rd nb r) s = .next t ∧ t.result = some (readRule r s).1 ∧ OnlyGpio nb s t
      ∧ t.gpio = (readRule r s).2.gpio := by
  have frame : BlockFrame .gpio s (readRule r s).2 := block ▸ readRule_frame r s
  have completes := exec_rd_of_admits nb admits
  rw [block] at completes
  exact ⟨_, completes, rfl, frame.onlyGpio nb _, rfl⟩

/-- A read transaction whose rule only draws leaves everything alone (R118, R130). -/
theorem exec_rd_drawn (admits : s.Admits r) (rule : readRule r s = (x, s.drawn)) :
    ∃ t : State, exec (Instr.rd nb r) s = .next t ∧ t.result = some x ∧ Untouched r.block nb s t := by
  have completes := exec_rd_of_admits nb admits
  rw [rule] at completes
  exact ⟨_, completes, rfl, rfl⟩

/-- A write transaction whose rule completes, completes (R131). -/
theorem exec_wr_gpio (admits : s.Admits r) (block : r.block = .gpio) (rule : writeRule v r s = .next u) :
    ∃ t : State, exec (Instr.wr nb v r) s = .next t ∧ t.result = none ∧ OnlyGpio nb s t ∧ t.gpio = u.gpio
      ∧ t.draws = u.draws := by
  have frame : BlockFrame .gpio s u := block ▸ writeRule_frame rule
  have completes := exec_wr_of_admits nb v admits
  rw [rule, block] at completes
  exact ⟨_, completes, rfl, frame.onlyGpio nb _, rfl, rfl⟩

/-- The read of a register that holds one bit per pin (R106). -/
theorem exec_rd_pair {n : Nat} {a : PinBits} (admits : s.Admits r) (block : r.block = .gpio)
    (rule : readRule r s = (pairWord n a s.freeWord, s.drawn)) :
    ∃ (t : State) (w : Word), exec (Instr.rd nb r) s = .next t ∧ t.result = some w ∧ Untouched .gpio nb s t
      ∧ (∀ p : Pin, p.val / 32 = n → w.getLsbD (p.val % 32) = a.getLsbD p)
      ∧ (∀ j : Nat, j < 32 → numPins ≤ 32 * n + j → w.getLsbD j = s.freeWord.getLsbD j) := by
  obtain ⟨t, completes, returned, frame⟩ := exec_rd_drawn nb admits rule
  exact ⟨t, _, completes, returned, block ▸ frame, pairWord_getLsbD n a _, pairWord_reserved n a _⟩

end

/-- The detectors change no more of the block than its event status. -/
theorem asyncDetect_gpio (touched : Pin → Bool) (old new : State) :
    (asyncDetect touched old new).gpio = { new.gpio with eds := (asyncDetect touched old new).gpio.eds } := (rfl)

/-! ### Registers of the other generation (R168) -/

theorem guarded_of_other_variant {w : PudVariant} {m : State → Out} {s : State} (h : s.params.variant ≠ w) :
    guarded (some w) m s = .refused .unknownRegister := if_neg h

/-- Settles O9: the check of the generation comes before everything else. -/
theorem otherVariantRefused : Obligations.OtherVariantRefused := by
  intro s nb v n k
  refine ⟨fun modern => ?_, fun legacy => ?_⟩
  · have other : s.params.variant ≠ .legacy := by simp [modern]
    simp only [exec_rd, exec_wr, variantOf, guarded_of_other_variant other, and_self]
  · have other : s.params.variant ≠ .modern := by simp [legacy]
    simp only [exec_rd, exec_wr, variantOf, guarded_of_other_variant other, and_self]

/-! ### Function select (R140, R141) -/

/-- A reserved bit of a function-select register is the drawn one. -/
theorem fselWord_reserved (c : FselCodes) (n : Nat) (f : Vector FunSel numPins) (d : Word) (j : Nat) (hj : j < 32)
    (h : 30 ≤ j ∨ numPins ≤ 10 * n + j / 3) : (fselWord c n f d).getLsbD j = d.getLsbD j := by
  rw [fselWord, packBits_getLsbD, decide_eq_true hj, Bool.true_and, dif_neg (by omega)]

/-- Settles O13, by the fields and the reserved bits of the register's image. -/
theorem functionSelectRead : Obligations.FunctionSelectRead := by
  intro n nb s admits
  obtain ⟨t, completes, returned, frame⟩ := exec_rd_drawn nb admits rfl
  exact ⟨t, _, completes, returned, frame, fselWord_field _ n _ _, fselWord_reserved _ n _ _⟩

/-- Settles O14: the rule runs on the settled state, and a function decoded from a field has the code of the field
(`FselCodes.code_decode`). -/
theorem functionSelectWrite : Obligations.FunctionSelectWrite := by
  intro n nb v s admits codes
  obtain ⟨t, completes, returned, frame, gpio, -⟩ := exec_wr_gpio (v := v) nb admits rfl rfl
  have fsel (p : Pin) : t.gpio.fsel.get p =
      if p.val / 10 = n.val then s.params.fselCodes.decode (v.extractLsb' (shift3 p.val) 3) else s.gpio.fsel.get p := by
    simp [gpio, gpfselApply]
  refine ⟨t, completes, returned, frame, ?others, ?pull, ?arm, fun p member => ?written, fun p other => ?kept⟩
  case others =>
    rw [gpio]
    apply Gpio.ext <;> simp [gpfselApply]
  case pull => simp [gpio, gpfselApply]
  case arm => simp [gpio, gpfselApply]
  case written => rw [fsel, if_pos member, FselCodes.code_decode codes, shift3]
  case kept => rw [fsel, if_neg other]

/-! ### Output set and clear (R142 to R145) -/

/-- A bit of a Set register written 1 sets the latch of its pin. -/
theorem pairSet_eq_ite (n : Nat) (v : Word) (a : PinBits) (p : Pin) : (pairSet n v a).getLsbD p.val =
    if p.val / 32 = n ∧ v.getLsbD (p.val % 32) = true then true else a.getLsbD p.val := by
  rw [pairSet_getLsbD]
  cases v.getLsbD (p.val % 32) <;> by_cases member : p.val / 32 = n <;> simp [member]

/-- A bit of a write-1-to-clear register written 1 clears the bit of its pin. -/
theorem pairClear_eq_ite (n : Nat) (v : Word) (a : PinBits) (p : Pin) : (pairClear n v a).getLsbD p.val =
    if p.val / 32 = n ∧ v.getLsbD (p.val % 32) = true then false else a.getLsbD p.val := by
  rw [pairClear_getLsbD]
  cases v.getLsbD (p.val % 32) <;> by_cases member : p.val / 32 = n <;> simp [member]

/-- A write transaction whose rule replaces the output latches changes them and the event status only. -/
theorem exec_wr_out {s : State} {r : Reg} {v : Word} {out : PinBits} {latch : Pin → Bool} (nb : Bool) (admits : s.Admits r)
    (block : r.block = .gpio) (rule : writeRule v r s = .next (outApply out s))
    (latches : ∀ p : Pin, out.getLsbD p = latch p) :
    ∃ t : State, exec (Instr.wr nb v r) s = .next t ∧ t.result = none ∧ OnlyGpio nb s t
      ∧ t.gpio = { s.gpio with out := t.gpio.out, eds := t.gpio.eds } ∧ ∀ p : Pin, t.gpio.out.getLsbD p = latch p := by
  obtain ⟨t, completes, returned, frame, gpio, -⟩ := exec_wr_gpio nb admits block rule
  refine ⟨t, completes, returned, frame, ?_⟩
  rw [gpio]
  exact ⟨asyncDetect_gpio _ _ _, latches⟩

/-- Settles O15: both rules replace the output latches (`exec_wr_out`), by those written 1 set or cleared. -/
theorem outputSetAndClear : Obligations.OutputSetAndClear :=
  fun n nb v _ admits => ⟨exec_wr_out nb admits rfl rfl (pairSet_eq_ite n v _),
    exec_wr_out (r := .gpclr n) nb (admits.sibling rfl rfl) rfl rfl (pairClear_eq_ite n v _)⟩

/-- Settles O16: the read rule of both registers is the free word (`exec_rd_drawn`). -/
theorem setAndClearReadFree : Obligations.SetAndClearReadFree :=
  fun _ nb _ admits => ⟨exec_rd_drawn nb admits rfl, exec_rd_drawn (r := .gpclr _) nb (admits.sibling rfl rfl) rfl⟩

/-! ### Event status (R148, R149) -/

/-- Settles O18: the read is the pair's image of the event status, the write clears in it. -/
theorem eventStatus : Obligations.EventStatus := by
  intro n nb v s admits
  refine ⟨exec_rd_pair nb admits rfl rfl, ?_⟩
  obtain ⟨t, completes, returned, frame, gpio, draws⟩ := exec_wr_gpio (v := v) nb admits rfl rfl
  refine ⟨t, completes, returned, frame, draws, ?_⟩
  rw [gpio]
  exact ⟨rfl, pairClear_eq_ite n v _⟩

/-! ### The six detect enables (R150 to R161) -/

/-- The block with the enable array of one detector replaced (R26). -/
def Gpio.withEnable (g : Gpio) (a : PinBits) : EventKind → Gpio
  | .rising => { g with ren := a }
  | .falling => { g with fen := a }
  | .high => { g with hen := a }
  | .low => { g with len := a }
  | .asyncRising => { g with aren := a }
  | .asyncFalling => { g with afen := a }

section
variable (g : Gpio) (a : PinBits) (e : EventKind)

theorem Gpio.enables_withEnable (e' : EventKind) :
    (g.withEnable a e).enables e' = if e' = e then a else g.enables e' := by
  cases e <;> cases e' <;> rfl

/-- Only the six arrays can differ. -/
theorem Gpio.withEnable_frame : g.withEnable a e = { g with
    ren := (g.withEnable a e).ren, fen := (g.withEnable a e).fen, hen := (g.withEnable a e).hen,
    len := (g.withEnable a e).len, aren := (g.withEnable a e).aren, afen := (g.withEnable a e).afen } := by
  cases e <;> rfl

theorem EventKind.pair_block (n : Fin 2) : (e.pair n).block = .gpio := by cases e <;> rfl

theorem readRule_pair (n : Fin 2) (s : State) :
    readRule (e.pair n) s = (pairWord n (s.gpio.enables e) s.freeWord, s.drawn) := by
  cases e <;> rfl

theorem writeRule_pair (n : Fin 2) (v : Word) (s : State) :
    writeRule v (e.pair n) s = .next (s.withGpio (s.gpio.withEnable (pairWrite n v (s.gpio.enables e)) e)) := by
  cases e <;> rfl

end

/-- Settles O19: each pair reads and replaces the enable array of its detector (`readRule_pair`, `writeRule_pair`). -/
theorem detectEnables : Obligations.DetectEnables := by
  intro e n nb v s admits
  refine ⟨exec_rd_pair nb admits (e.pair_block n) (readRule_pair e n s), ?_⟩
  obtain ⟨t, completes, returned, frame, gpio, draws⟩ :=
    exec_wr_gpio nb admits (e.pair_block n) (writeRule_pair e n v s)
  rw [State.withGpio_gpio] at gpio
  refine ⟨t, completes, returned, frame, draws, ?_⟩
  rw [gpio]
  refine ⟨fun p => ?written, fun e' other => ?others, Gpio.withEnable_frame _ _ _⟩
  case written => rw [Gpio.enables_withEnable, if_pos rfl, pairWrite_getLsbD]
  case others => rw [Gpio.enables_withEnable, if_neg other]

/-! ### Legacy pull control (R162 to R165) -/

/-- Settles O20: both reads are images of the settled state, which keeps what was last written. -/
theorem legacyPullReads : Obligations.LegacyPullReads := by
  intro n nb s admits
  refine ⟨fun layout => ?control, ?clock⟩
  case control =>
    obtain ⟨t, completes, returned, frame, gpio⟩ := exec_rd_gpio nb admits rfl
    obtain ⟨code, free⟩ := gppudWord_fields (settle s).gpio.pud (settle s).freeWord
    refine ⟨t, _, completes, returned, frame, gpio, ?_⟩
    simp only [readRule, gppudRead, readDrawing, settle_params, BitPlaces.tableWord_regWord layout]
    exact ⟨code.trans (settle_pud s), free⟩
  case clock =>
    have clock : s.Admits (.gppudclk n) := admits.sibling rfl rfl
    obtain ⟨t, completes, returned, frame, gpio⟩ := exec_rd_gpio nb clock rfl
    refine ⟨t, _, completes, returned, frame, gpio, fun p member => ?_, pairWord_reserved n _ _⟩
    exact (pairWord_getLsbD n _ _ p member).trans (by rw [settle_pudclk])

section
variable {v : Word} {s : State}

/-- A write of `GPPUD` with code 3 is refused (R163). -/
theorem writeRule_gppud_of_reserved (h : (s.params.layout.gppud.tableWord v).extractLsb' 0 2 = 3) :
    writeRule v .gppud s = .refused .reservedPullCode := if_pos h

/-- Any other code is stored, from a settled state. -/
theorem writeRule_gppud_of_code (h : (s.params.layout.gppud.tableWord v).extractLsb' 0 2 ≠ 3) :
    writeRule v .gppud s = .next (gppudApply ((s.params.layout.gppud.tableWord v).extractLsb' 0 2) (settle s)) :=
  if_neg h

end

theorem gppudApply_arm (m : BitVec 2) (s : State) (p : Pin) :
    (gppudApply m s).gpio.arm.get p = (s.gpio.arm.get p).violated m := by
  simp only [gppudApply, State.withGpio_gpio, pinVector_get]

/-- An armed latch keeps its `ok` exactly while the control is its code (R163). -/
theorem Arm.violated_armed (m m' : BitVec 2) (t : BitVec 64) (ok : Bool) :
    (Arm.armed m' t ok).violated m = .armed m' t (if m = m' then ok else false) := by
  by_cases same : m = m' <;> simp [Arm.violated, same]

/-- Settles O21, by the two cases of the write rule and those of an arming record. -/
theorem legacyControlWrite : Obligations.LegacyControlWrite := by
  intro nb x s admits v u
  refine ⟨fun reserved => ?refused, fun code => ?stored⟩
  case refused => rw [exec_wr_of_admits nb x admits, writeRule_gppud_of_reserved reserved, mapNext_refused]
  case stored =>
    obtain ⟨t, completes, returned, frame, gpio, -⟩ := exec_wr_gpio nb admits rfl (writeRule_gppud_of_code code)
    have arm (p : Pin) : t.gpio.arm.get p = (u.gpio.arm.get p).violated (v.extractLsb' 0 2) := by
      rw [gpio, gppudApply_arm]
    refine ⟨t, completes, returned, frame, ?_, fun p => ⟨fun h => ?_, fun h => ?_, fun m i ok h => ?_⟩⟩
    · rw [gpio, ← settle_cnt s]
      rfl
    · rw [arm, h, Arm.violated]
      nofun
    · rw [arm, h, Arm.violated]
      nofun
    · rw [arm, h, Arm.violated_armed]

/-! #### The clock (R165) -/

theorem Arm.isArmed_eq_false {a : Arm} : a.isArmed = false ↔ ∀ m i ok, a ≠ .armed m i ok := by
  cases a <;> simp [Arm.isArmed]

section
variable {clk : PinBits} {s : State} {p : Pin}

theorem pudclkEffect_arm : (pudclkEffect clk s).gpio.arm.get p =
    if clockRises s.gpio.pudclk clk p then .armed s.gpio.pud s.cnt (s.setupMet p)
    else if clockFalls s.gpio.pudclk clk p then .none else s.gpio.arm.get p := by
  simp only [pudclkEffect, State.drawn_gpio, State.withGpio_gpio, pinVector_get]

theorem pudclkEffect_pull : (pudclkEffect clk s).gpio.pull.get p =
    if clockFalls s.gpio.pudclk clk p && (s.gpio.arm.get p).isArmed then s.freePull p else s.gpio.pull.get p := by
  simp only [pudclkEffect, State.drawn_gpio, State.withGpio_gpio, pinVector_get]

theorem pudclkEffect_of_stays (h : s.gpio.pudclk.getLsbD p = clk.getLsbD p) :
    (pudclkEffect clk s).gpio.arm.get p = s.gpio.arm.get p
      ∧ (pudclkEffect clk s).gpio.pull.get p = s.gpio.pull.get p := by
  have rises : clockRises s.gpio.pudclk clk p = false := by rw [clockRises, h, Bool.not_and_self]
  have falls : clockFalls s.gpio.pudclk clk p = false := by rw [clockFalls, h, Bool.and_not_self]
  simp [pudclkEffect_arm, pudclkEffect_pull, rises, falls]

theorem pudclkEffect_of_rises (old : s.gpio.pudclk.getLsbD p = false) (new : clk.getLsbD p = true) :
    (pudclkEffect clk s).gpio.arm.get p = .armed s.gpio.pud s.cnt (s.setupMet p)
      ∧ (pudclkEffect clk s).gpio.pull.get p = s.gpio.pull.get p := by
  have rises : clockRises s.gpio.pudclk clk p = true := by rw [clockRises, old, new]; rfl
  have falls : clockFalls s.gpio.pudclk clk p = false := by rw [clockFalls, old, Bool.false_and]
  simp [pudclkEffect_arm, pudclkEffect_pull, rises, falls]

theorem pudclkEffect_of_falls (old : s.gpio.pudclk.getLsbD p = true) (new : clk.getLsbD p = false) :
    (pudclkEffect clk s).gpio.arm.get p = .none
      ∧ ((s.gpio.arm.get p).isArmed = false → (pudclkEffect clk s).gpio.pull.get p = s.gpio.pull.get p) := by
  have rises : clockRises s.gpio.pudclk clk p = false := by rw [clockRises, new, Bool.and_false]
  have falls : clockFalls s.gpio.pudclk clk p = true := by rw [clockFalls, old, new]; rfl
  simp +contextual [pudclkEffect_arm, pudclkEffect_pull, rises, falls]

end

/-- Once the control was written, the setup time is measured and not drawn (R31). -/
theorem State.setupMet_of_pudSeen {s : State} (h : s.gpio.pudSeen = true) (p : Pin) :
    s.setupMet p = decide (s.params.tPudTicks ≤ (s.cnt - s.gpio.pudT).toNat) := if_pos h

/-- What a write of a clock register leaves of the block: the clock, what `pudclkEffect` makes of records and pulls, and
the event status. -/
theorem gppudclkApply_gpio (n : Nat) (v : Word) (s : State) : (gppudclkApply n v s).gpio = { s.gpio with
    pudclk := pairWrite n v s.gpio.pudclk
    arm := (pudclkEffect (pairWrite n v s.gpio.pudclk) s).gpio.arm
    pull := (pudclkEffect (pairWrite n v s.gpio.pudclk) s).gpio.pull
    eds := (gppudclkApply n v s).gpio.eds } := (rfl)

/-- Settles O22: the rule runs on the settled state, and a clock bit that stays, rises or falls has the effect of
`pudclkEffect_of_stays`, `pudclkEffect_of_rises` or `pudclkEffect_of_falls`. -/
theorem legacyClockWrite : Obligations.LegacyClockWrite := by
  intro n nb v s admits u
  obtain ⟨t, completes, returned, frame, gpio, -⟩ :=
    exec_wr_gpio (v := v) (u := gppudclkApply n v u) nb admits rfl rfl
  have sameClock : u.gpio.pudclk = s.gpio.pudclk := settle_pudclk s
  have sameControl : u.gpio.pud = s.gpio.pud := settle_pud s
  have sameInstant : u.gpio.pudT = s.gpio.pudT := settle_pudT s
  have sameSeen : u.gpio.pudSeen = s.gpio.pudSeen := settle_pudSeen s
  have sameCount : u.cnt = s.cnt := settle_cnt s
  have sameParams : u.params = s.params := settle_params s
  clear_value u
  rw [gppudclkApply_gpio] at gpio
  have clk : t.gpio.pudclk = pairWrite n v u.gpio.pudclk := by rw [gpio]
  have arm : t.gpio.arm = (pudclkEffect (pairWrite n v u.gpio.pudclk) u).gpio.arm := by rw [gpio]
  have pull : t.gpio.pull = (pudclkEffect (pairWrite n v u.gpio.pudclk) u).gpio.pull := by rw [gpio]
  rw [← clk] at arm pull
  refine ⟨t, completes, returned, frame, by rw [gpio], fun p => ?_⟩
  rw [arm, pull, ← sameClock, ← sameControl, ← sameInstant, ← sameSeen, ← sameCount, ← sameParams]
  refine ⟨?written, pudclkEffect_of_stays, fun old new => ?rises, fun old new => ?falls⟩
  case written => rw [clk, pairWrite_getLsbD]
  case rises =>
    obtain ⟨armed, kept⟩ := pudclkEffect_of_rises old new
    exact ⟨kept, _, armed, fun seen => State.setupMet_of_pudSeen seen p⟩
  case falls =>
    obtain ⟨disarmed, kept⟩ := pudclkEffect_of_falls old new
    exact ⟨disarmed, fun idle => kept (Arm.isArmed_eq_false.mpr idle)⟩

/-! ### The Legacy pull latch (R181) -/

/-- The detectors watch only the pins whose latch may fire. -/
theorem latchPins_eds_of_unselected {which : Pin → Bool} {p : Pin} (h : which p = false) (s : State) :
    (latchPins which s).gpio.eds.getLsbD p = s.gpio.eds.getLsbD p := by
  rw [latchPins, asyncDetect_eds, latchEffect_eds]
  simp only [h, Bool.false_and, Bool.or_false]

/-- A set of latches stays within event status, pulls and arming records. -/
theorem latchPins_sameButLatches (which : Pin → Bool) (s : State) :
    Gpio.SameButLatches s.gpio (latchPins which s).gpio := congrArg State.gpio (latchPins_eq which s)

theorem latchPins_frame (which : Pin → Bool) (s : State) :
    latchPins which s = { s with gpio := (latchPins which s).gpio, draws := (latchPins which s).draws } := by
  rw [latchPins_eq]

/-- Settles O23, from what `latchPins_arm` and `latchPins_pull` say of a pin whose latch is selected and due, and of one
whose latch is not. -/
theorem pullLatch : Obligations.PullLatch := by
  intro s p
  refine ⟨latchDue_iff s p, fun due => ⟨?fires, fun m i mode armed code => ?pulls⟩, fun idle => ?idle,
    settle_latchDue s p, latchPins_sameButLatches _ s, latchPins_frame _ s, ?sameArm, ?samePull,
    fun q other => ?others, latchPins_sameButLatches _ s, latchPins_frame _ s⟩
  case fires => rw [settle_arm, if_pos due]
  case pulls => rw [settle_pull, if_pos due, latchedPull_ok armed code]
  case idle => simp only [settle_arm, settle_pull, idle, Bool.false_eq_true, if_false, and_self]
  case sameArm => simp only [pudLatchStep, latchPins_arm, settle_arm, beq_self_eq_true, Bool.true_and]
  case samePull => simp only [pudLatchStep, latchPins_pull, settle_pull, beq_self_eq_true, Bool.true_and]
  case others =>
    have unselected : (q == p) = false := beq_false_of_ne other
    refine ⟨?_, ?_, latchPins_eds_of_unselected (which := (· == p)) unselected s⟩
    · simp [pudLatchStep, latchPins_arm, unselected]
    · simp [pudLatchStep, latchPins_pull, unselected]

/-! ### Modern pull fields (R166, R167) -/

/-- A reserved bit of a pull-field register is the drawn one. -/
theorem puppdnWord_reserved (n : Nat) (f : Vector (BitVec 2) numPins) (d : Word) (j : Nat) (hj : j < 32)
    (h : numPins ≤ 16 * n + j / 2) : (puppdnWord n f d).getLsbD j = d.getLsbD j := by
  rw [puppdnWord, packBits_getLsbD, decide_eq_true hj, Bool.true_and, dif_neg (by omega)]

/-- In the Modern generation a pin's pull is the one its field names (R30). -/
theorem pullState_of_modern {s : State} (h : s.params.variant = .modern) (p : Pin) :
    s.pullState p = modernPull (s.gpio.puppdn.get p) := by
  simp only [State.pullState, h]

/-- A register of the Modern generation is admitted in it only. -/
theorem State.Admits.variant_eq {s : State} {r : Reg} {w : PudVariant} (h : s.Admits r) (hr : variantOf r = some w) :
    s.params.variant = w := by
  have here := admits_variant h
  rw [hr] at here
  simpa [eq_comm] using here

/-- Settles O25: the read is the image of the fields, the write replaces those of its register, and the pull follows the
field (`pullState_of_modern`). -/
theorem modernPullFields : Obligations.ModernPullFields := by
  intro n nb v s admits w
  refine ⟨fun layout => ?read, ?write⟩
  case read =>
    obtain ⟨t, completes, returned, frame⟩ := exec_rd_drawn nb admits rfl
    refine ⟨t, _, completes, returned, frame, ?_⟩
    simp only [BitPlaces.tableWord_regWord layout]
    exact ⟨puppdnWord_field n _ _, puppdnWord_reserved n _ _⟩
  case write =>
    obtain ⟨t, completes, returned, frame, gpio, -⟩ := exec_wr_gpio (v := v) nb admits rfl rfl
    have modern : t.params.variant = .modern := by
      rw [frame]
      exact admits.variant_eq rfl
    refine ⟨t, completes, returned, frame, by rw [gpio]; rfl, fun p => ⟨?_, pullState_of_modern modern p⟩⟩
    rw [gpio]
    exact puppdnWrite_get n w _ p

/-! ### Pads (R170, R171) -/

/-- Settles O26: the read is the image of the stored bits, and the two cases of `padsStore` are those of the write. -/
theorem padControl : Obligations.PadControl := by
  intro g nb v s admits w passwd
  have completes := exec_wr_of_admits nb v admits
  refine ⟨fun layout => ?read, fun matching => ?stored, fun wrong => ?ignored⟩
  case read =>
    obtain ⟨t, completes, returned, frame⟩ := exec_rd_drawn nb admits rfl
    refine ⟨t, _, completes, returned, frame, ?_⟩
    simp only [BitPlaces.tableWord_regWord layout]
    exact padsWord_fields _ _
  case stored =>
    have rule : writeRule v (.pads g) s = .next (s.withPads (s.pads.set g (w.extractLsb' 0 5))) :=
      congrArg Host.Outcome.next (if_pos matching)
    rw [rule] at completes
    refine ⟨_, completes, rfl, fun h => ?_⟩
    exact (vector_set_get _ _ _ _).trans (by simp only [eq_comm])
  case ignored =>
    have rule : writeRule v (.pads g) s = .next s := congrArg Host.Outcome.next (if_neg wrong)
    rw [completes, rule]
    rfl

/-! ### Sampled detection (R175) -/

/-- The event status of a pin after a sample: the four sampled detectors on the old and the new level. -/
theorem sampledEds_getLsbD (g : Gpio) (now : PinBits) (p : Pin) : (sampledEds g now).getLsbD p.val = true ↔
    g.eds.getLsbD p = true
    ∨ (g.ren.getLsbD p = true ∧ g.prev.getLsbD p = false ∧ now.getLsbD p = true)
    ∨ (g.fen.getLsbD p = true ∧ g.prev.getLsbD p = true ∧ now.getLsbD p = false)
    ∨ (g.hen.getLsbD p = true ∧ now.getLsbD p = true)
    ∨ (g.len.getLsbD p = true ∧ now.getLsbD p = false) := by
  simp only [sampledEds, BitVec.getLsbD_or, BitVec.getLsbD_and, BitVec.getLsbD_not, p.isLt, decide_true, Bool.true_and,
    Bool.or_eq_true, Bool.and_eq_true, Bool.not_eq_true', or_assoc, and_assoc]

/-- Settles O27: a sample works on the settled state, sees each determined level (`levels_of_level`) and sets what its
detectors call for (`sampledEds_getLsbD`). -/
theorem sampleStep_detects : Obligations.SampleStep := by
  intro s u t
  have gpio : t.gpio = { u.gpio with eds := sampledEds u.gpio (u.levels u.freePins), prev := u.levels u.freePins } := rfl
  refine ⟨?frame, rfl, fun p => ?_⟩
  case frame =>
    apply State.ext <;> simp [t, sampleStep, sampleApply]
  rw [gpio, ← settle_ren s, ← settle_fen s, ← settle_hen s, ← settle_len s, ← settle_prev s]
  exact ⟨fun high => levels_of_level (b := true) high _, fun low => levels_of_level (b := false) low _,
    sampledEds_getLsbD u.gpio _ p⟩

/-! ### Asynchronous detection (R176) -/

section
variable {s : State} {p : Pin}

/-- The output latch decides the level of an output only. -/
theorem level_congr_of_ne_output {t : State} (hf : t.gpio.fsel.get p = s.gpio.fsel.get p)
    (h : s.gpio.fsel.get p ≠ .output) (he : t.env.ext.get p = s.env.ext.get p) (hp : t.pullState p = s.pullState p) :
    t.level p = s.level p := by
  unfold State.level
  rw [hf, he, hp]
  cases function : s.gpio.fsel.get p
  case output => exact absurd function h
  all_goals rfl

/-- A pull that does not count as changed is the same. -/
theorem pullState_of_not_pullChanged {t : State} (h : pullChanged s t p = false) : s.pullState p = t.pullState p := by
  unfold pullChanged at h
  split at h
  · rename_i a b before after
    rw [before, after, bne_eq_false_iff_eq.mp h]
  · cases h

theorem setExtApply_detected (q : Pin) (l : Ext) : AsyncDetected s (setExtApply q l s) s.gpio.eds p := by
  refine asyncDetect_detected fun unwatched => Eq.symm (level_congr rfl rfl ?_ rfl)
  have other : q ≠ p := fun same => by simp [same] at unwatched
  exact (vector_set_get _ _ _ _).trans (if_neg other)

theorem outApply_detected (out : PinBits) : AsyncDetected s (outApply out s) s.gpio.eds p :=
  asyncDetect_detected fun unwatched =>
    Eq.symm (level_congr_of_ne_output rfl (beq_eq_false_iff_ne.mp unwatched) rfl rfl)

theorem gpfselApply_detected (n : Nat) (v : Word) : AsyncDetected s (gpfselApply n v s) s.gpio.eds p :=
  asyncDetect_detected fun unwatched =>
    Eq.symm (level_congr (bne_eq_false_iff_eq.mp unwatched).symm rfl rfl rfl)

/-- A field outside the register stays, and one inside is watched when it changes the pull. -/
theorem puppdnApply_detected (n : Nat) (v : Word) : AsyncDetected s (puppdnApply n v s) s.gpio.eds p := by
  refine asyncDetect_detected (new := puppdnEffect n v s) fun unwatched => Eq.symm (level_congr rfl rfl rfl ?_)
  obtain outside | same := Bool.and_eq_false_iff.mp unwatched
  · refine pullState_congr rfl rfl ((puppdnWrite_get n v _ p).trans (if_neg fun member => ?_))
    exact Bool.eq_false_iff.mp outside ((inMember_iff 16 n p).mpr member)
  · exact (pullState_of_not_pullChanged same).symm

theorem gppudclkApply_detected (n : Nat) (v : Word) : AsyncDetected s (gppudclkApply n v s) s.gpio.eds p :=
  asyncDetect_detected (new := pudclkEffect (pairWrite n v s.gpio.pudclk) s) fun unwatched =>
    level_congr rfl rfl rfl (pullState_of_not_pullChanged unwatched)

/-- A write that completes did what its rule did on the way to the detectors. -/
theorem AsyncDetected.of_exec_wr {t u old : State} {r : Reg} {nb : Bool} {v : Word} {before : PinBits}
    (completes : exec (Instr.wr nb v r) s = .next t) (rule : writeRule v r s = .next u)
    (detected : AsyncDetected old u before p) : AsyncDetected old t before p := by
  obtain ⟨-, u', rule', rfl⟩ := exec_wr_next completes
  cases rule'.symm.trans rule
  exact detected.wrapped _ _

end

/-- Settles O28: at each of these steps the detectors watch every pin whose level the step can change. -/
theorem asynchronousDetection : Obligations.AsynchronousDetection := by
  refine ⟨fun s q l p => setExtApply_detected q l, fun s t nb v n p completes => ?output,
    fun s t nb v n p completes => ?function, fun s t nb v n p completes => ?field,
    fun s t nb v n p completes => ?clock, fun s p => latchPins_detected _ s p, fun s q p => latchPins_detected _ s p⟩
  case output =>
    obtain completes | completes := completes <;> exact .of_exec_wr completes rfl (outApply_detected _)
  case function => exact .of_exec_wr completes rfl (gpfselApply_detected n v)
  case field => exact .of_exec_wr completes rfl (puppdnApply_detected n _)
  case clock => exact .of_exec_wr completes rfl (gppudclkApply_detected n v)

end Sys2Proof.Machine
end

section
/-! SUPPORT. The system timer (R190 to R194) and the writes that are refused (R194, R241): the statements of
spec/42_timer.md. -/

namespace Sys2Proof.Machine

/-- Settles O30: the step is these two changes, and a counter of 64 bits counts modulo 2^64. -/
theorem timerTick : Obligations.TimerTick := fun s => ⟨rfl, BitVec.toNat_add s.cnt 1#64⟩

/-- The two halves of the counter are admitted together: `ST` has one order check. -/
theorem State.Admits.chi_of_clo {s : State} (h : s.Admits .clo) : s.Admits .chi := h.sibling rfl rfl

/-- Settles O31: both read rules look at the counter and leave the state alone. -/
theorem timerReads : Obligations.TimerReads := fun nb _ admits =>
  ⟨exec_rd_of_admits nb admits, exec_rd_of_admits nb admits.chi_of_clo⟩

/-- A write whose rule refuses is refused, once its checks pass. -/
theorem exec_wr_refused {s : State} {r : Reg} {v : Word} {why : Refusal} (nb : Bool) (admits : s.Admits r)
    (rule : writeRule v r s = .refused why) : exec (Instr.wr nb v r) s = .refused why := by
  rw [exec_wr_of_admits nb v admits, rule, mapNext_refused]

/-- Settles O32: the write rule of each of the three registers refuses. -/
theorem refusedWrites : Obligations.RefusedWrites := fun nb _ _ =>
  ⟨fun admits => ⟨exec_wr_refused nb admits rfl, exec_wr_refused nb admits.chi_of_clo rfl⟩,
    fun admits => exec_wr_refused nb admits rfl⟩

end Sys2Proof.Machine
end

section
/-! SUPPORT. The primary SPI: its three registers (R201 to R209) and its shift engine (R214): the statements of
spec/43_spi0.md. -/

namespace Sys2Proof.Machine

/-- A write whose rule completes completes, once its checks pass (R131). -/
theorem exec_wr_next_of_rule {s u : State} {r : Reg} {v : Word} (nb : Bool) (admits : s.Admits r)
    (rule : writeRule v r s = .next u) :
    exec (Instr.wr nb v r) s = .next ((u.withResult none).withLastNb (lastNbAfter r.block nb)) := by
  rw [exec_wr_of_admits nb v admits, rule, mapNext_next]

/-! ### The status flags (R37) -/

theorem State.done_iff (s : State) : s.done = true ↔ s.spi0.ta = true ∧ s.spi0.txq.length = 0 := by
  rw [State.done, Bool.and_eq_true, List.isEmpty_iff_length_eq_zero]

theorem State.rxd_iff (s : State) : s.rxd = true ↔ 0 < s.spi0.rxq.length := decide_eq_true_iff

theorem State.txd_iff (s : State) : s.txd = true ↔ s.spi0.txq.length < s.params.spi0Depth := decide_eq_true_iff

/-! ### `SPI0.CS` (R201, R202) -/

/-- Settles O34: the value returned is the image of the register, which holds its fields (`csWord_bits`, `csWord_slices`). -/
theorem spi0StatusRead : Obligations.Spi0StatusRead := by
  intro nb s admits layout
  obtain ⟨t, completes, returned, frame⟩ := exec_rd_drawn nb admits rfl
  refine ⟨t, _, completes, returned, frame, ?_⟩
  simp only [BitPlaces.tableWord_regWord layout]
  obtain ⟨cpha, cpol, clearTx, clearRx, ta, done, rxd, txd, cspol0, cspol1, cspol2⟩ :=
    csWord_bits s.spi0 s.done s.rxd s.txd s.freeWord
  obtain ⟨cs, other, low, high⟩ := csWord_slices s.spi0 s.done s.rxd s.txd s.freeWord
  exact ⟨cs, cpha, cpol, clearTx, clearRx, ta, (Bool.eq_iff_iff.mp done).trans s.done_iff,
    (Bool.eq_iff_iff.mp rxd).trans s.rxd_iff, (Bool.eq_iff_iff.mp txd).trans s.txd_iff, cspol0, cspol1, cspol2, other, low,
    high⟩

/-- The fields that may not change during a transfer (R202). -/
theorem csConfigChanges_iff (p : Spi0) (v : Word) : csConfigChanges p v = true ↔
    v.extractLsb' 0 2 ≠ p.cs ∨ v.getLsbD 2 ≠ p.cpha ∨ v.getLsbD 3 ≠ p.cpol
      ∨ v.getLsbD 21 ≠ p.cspol0 ∨ v.getLsbD 22 ≠ p.cspol1 ∨ v.getLsbD 23 ≠ p.cspol2 := by
  simp only [csConfigChanges, Bool.not_and, Bool.or_eq_true, Bool.not_eq_true', beq_eq_false_iff_ne, or_assoc]

section
variable {s : State} {v : Word}

theorem csStore_of_reserved (reserved : v.extractLsb' 0 2 = 3) : csStore v s = .refused .reservedChipSelect :=
  if_pos reserved

theorem csStore_of_changes (select : v.extractLsb' 0 2 ≠ 3) (active : s.spi0.ta = true) (stays : v.getLsbD 7 = true)
    (changes : csConfigChanges s.spi0 v = true) : csStore v s = .refused .configChangeDuringTransfer := by
  rw [csStore, if_neg select, active, stays, changes]
  rfl

theorem csStore_of_allowed (select : v.extractLsb' 0 2 ≠ 3)
    (allowed : s.spi0.ta = false ∨ v.getLsbD 7 = false ∨ csConfigChanges s.spi0 v = false) :
    csStore v s = .next (s.withSpi0 (csApply s.spi0 v)) := by
  rw [csStore, if_neg select, if_neg]
  rwa [Bool.not_eq_true, Bool.and_eq_false_iff, Bool.and_eq_false_iff, or_assoc]

end

/-- Settles O35: the three cases of `csStore` are those of the statement. -/
theorem spi0ControlWrite : Obligations.Spi0ControlWrite := by
  intro nb x s admits v changes
  have changed : csConfigChanges s.spi0 v = true ↔ changes := csConfigChanges_iff _ _
  refine ⟨fun reserved => ?reserved, fun select active stays change => ?refused, fun select allowed => ?stored⟩
  case reserved => exact exec_wr_refused nb admits (csStore_of_reserved reserved)
  case refused => exact exec_wr_refused nb admits (csStore_of_changes select active stays (changed.mpr change))
  case stored =>
    rw [← changed, Bool.not_eq_true] at allowed
    exact exec_wr_next_of_rule nb admits (csStore_of_allowed select allowed)

/-! ### `SPI0.FIFO` (R206, R207) -/

section
variable {s : State} {v : Word}

theorem readRule_fifo_of_cons {b : Byte} {rest : List Byte} (received : s.spi0.rxq = b :: rest) :
    readRule .fifo s = (s.params.layout.fifo.regWord (b.setWidth 32), s.withSpi0 { s.spi0 with rxq := rest }) := by
  rw [readRule, fifoRead, received]

theorem readRule_fifo_of_nil (empty : s.spi0.rxq = []) : readRule .fifo s = (s.freeWord, s.drawn) := by
  rw [readRule, fifoRead, empty]

theorem fifoStore_of_idle (idle : s.spi0.ta = false) : fifoStore v s = .refused .fifoWriteWhileIdle := if_pos idle

theorem fifoStore_of_full (active : s.spi0.ta = true) (full : s.spi0.txq.length = s.params.spi0Depth) :
    fifoStore v s = .refused .txFifoOverflow := by
  rw [fifoStore, if_neg (by simp [active]), if_pos full]

theorem fifoStore_of_room (active : s.spi0.ta = true) (room : s.spi0.txq.length ≠ s.params.spi0Depth) :
    fifoStore v s = .next (s.withSpi0 { s.spi0 with txq := s.spi0.txq ++ [v.extractLsb' 0 8] }) := by
  rw [fifoStore, if_neg (by simp [active]), if_neg room]

end

/-- Settles O36: the read is that of a FIFO with a byte or of an empty one, the write one of the cases of `fifoStore`. -/
theorem spi0Fifo : Obligations.Spi0Fifo := by
  intro nb v s admits
  refine ⟨fun layout b rest received => ?popped, fun empty => ?empty, fun idle => ?idle, fun active full => ?full,
    fun active room => ?pushed⟩
  case popped =>
    refine ⟨_, BitPlaces.tableWord_regWord layout _, ?_⟩
    rw [exec_rd_of_admits nb admits, readRule_fifo_of_cons received]
    rfl
  case empty => exact exec_rd_drawn nb admits (readRule_fifo_of_nil empty)
  case idle => exact exec_wr_refused nb admits (fifoStore_of_idle idle)
  case full => exact exec_wr_refused nb admits (fifoStore_of_full active full)
  case pushed => exact exec_wr_next_of_rule nb admits (fifoStore_of_room active room)

/-! ### `SPI0.CLK` (R208, R209) -/

/-- Settles O37: the read leaves the state alone, and `TA` decides between the two cases of the write. -/
theorem spi0ClockDivider : Obligations.Spi0ClockDivider := by
  intro nb v s admits
  refine ⟨fun layout => ?read, fun active => ?refused, fun idle => ?stored⟩
  case read => exact ⟨_, BitPlaces.tableWord_regWord layout _, exec_rd_of_admits nb admits⟩
  case refused => exact exec_wr_refused nb admits (if_pos active)
  case stored => exact exec_wr_next_of_rule nb admits (if_neg (Bool.eq_false_iff.mp idle))

/-! ### The shift engine (R214) -/

section
variable {s : State} {b : Byte} {rest : List Byte}

theorem State.spi0ShiftEnabled_iff (s : State) : s.spi0ShiftEnabled = true ↔
    s.spi0.ta = true ∧ 0 < s.spi0.txq.length ∧ s.spi0.rxq.length < s.params.spi0Depth := by
  rw [State.spi0ShiftEnabled, Bool.and_eq_true, Bool.and_eq_true, Bool.not_eq_true', List.isEmpty_eq_false_iff,
    List.length_pos_iff, decide_eq_true_iff, and_assoc]

theorem spi0ShiftStep_of_disabled (disabled : ¬ s.spi0ShiftEnabled = true) : spi0ShiftStep s = .next s := if_neg disabled

theorem spi0ShiftStep_of_unmodelled (enabled : s.spi0ShiftEnabled = true) (other : s.spi0.csOther ≠ 0) :
    spi0ShiftStep s = .refused .unmodelledControlBit := by
  rw [spi0ShiftStep, if_pos enabled, if_pos other]

theorem spi0ShiftStep_of_queued (enabled : s.spi0ShiftEnabled = true) (other : s.spi0.csOther = 0)
    (queued : s.spi0.txq = b :: rest) : spi0ShiftStep s = .next (spi0Exchange b rest s) := by
  rw [spi0ShiftStep, if_pos enabled, if_neg (not_not.mpr other), queued]

theorem State.spi0Answer_of_echo (routed : s.routed0 = true) (slave : s.env.slave0 = .echo) : s.spi0Answer b = b := by
  rw [State.spi0Answer, if_pos routed, slave]

theorem State.spi0Answer_of_const {c : BitVec 24} (routed : s.routed0 = true) (slave : s.env.slave0 = .const c) :
    s.spi0Answer b = c.setWidth 8 := by
  rw [State.spi0Answer, if_pos routed, slave]

theorem State.spi0Answer_of_oracle (routed : s.routed0 = true) (slave : s.env.slave0 = .oracle) :
    s.spi0Answer b = Config.slave0 s.spi0.cs s.spi0.mode b s.hist := by
  rw [State.spi0Answer, if_pos routed, slave]

theorem State.spi0Answer_of_unrouted (unrouted : s.routed0 = false) : s.spi0Answer b = s.freeWord.setWidth 8 :=
  if_neg (Bool.eq_false_iff.mp unrouted)

end

/-- Settles O39: the engine's step by cases, where the byte received is the slave's answer (`State.spi0Answer`). -/
theorem spi0ShiftStep_exchanges : Obligations.Spi0ShiftStep := by
  intro s enabled
  have enabled_iff : s.spi0ShiftEnabled = true ↔ enabled := s.spi0ShiftEnabled_iff
  refine ⟨fun disabled => ?stays, fun enabled other => ?refused, fun enabled other b rest queued => ?exchanged⟩
  case stays => exact spi0ShiftStep_of_disabled (mt enabled_iff.mp disabled)
  case refused => exact spi0ShiftStep_of_unmodelled (enabled_iff.mpr enabled) other
  case exchanged =>
    exact ⟨s.spi0Answer b, spi0ShiftStep_of_queued (enabled_iff.mpr enabled) other queued, State.spi0Answer_of_echo,
      fun _ => State.spi0Answer_of_const, State.spi0Answer_of_oracle, State.spi0Answer_of_unrouted⟩

end Sys2Proof.Machine
end

section
/-! SUPPORT. The auxiliary enable and the registers of the auxiliary SPI (R231 to R247), its two engines (R252, R254), the
order in which received words are read (R255), and the groups of a buffer (R256): the statements of spec/44_auxspi.md. -/

namespace Sys2Proof.Machine

/-! ### `AUX.ENB` and `SPI1.CNTL1` (R232, R233, R236, R237) -/

/-- Settles O40: the value returned is the image of the enable, which holds its fields (`enbWord_fields`), and the write
always completes. -/
theorem auxiliaryEnable : Obligations.AuxiliaryEnable := by
  intro nb v s admits w
  refine ⟨fun layout => ?read, exec_wr_next_of_rule nb admits rfl⟩
  case read =>
    obtain ⟨t, completes, returned, frame⟩ := exec_rd_drawn nb admits rfl
    refine ⟨t, _, completes, returned, frame, ?_⟩
    simp only [BitPlaces.tableWord_regWord layout]
    exact enbWord_fields s.aux s.freeWord

/-- Settles O42: the value returned is the image of the register, which holds its fields (`cntl1Word_fields`), and the
write always completes. -/
theorem spi1Control1 : Obligations.Spi1Control1 := by
  intro nb v s admits w
  refine ⟨fun layout => ?read, exec_wr_next_of_rule nb admits rfl⟩
  case read =>
    refine ⟨_, exec_rd_of_admits nb admits, ?_⟩
    simp only [readRule, cntl1Read, readPlain, BitPlaces.tableWord_regWord layout]
    exact cntl1Word_fields s.spi1

/-! ### `SPI1.STAT` (R240) -/

theorem State.busy_iff (s : State) : s.busy = true ↔ 0 < s.spi1.txq.length := by
  rw [State.busy, Bool.not_eq_true', List.isEmpty_eq_false_iff, List.length_pos_iff]

theorem State.rxEmpty_iff (s : State) : s.rxEmpty = true ↔ s.spi1.rxq.length = 0 := List.isEmpty_iff_length_eq_zero

theorem State.txFull_iff (s : State) : s.txFull = true ↔ s.spi1.txq.length = s.params.auxDepth := decide_eq_true_iff

/-- Settles O43: the value returned is the image of the register, which holds the three flags over the free word
(`statWord_bits`, `statWord_free`). -/
theorem spi1StatusRead : Obligations.Spi1StatusRead := by
  intro nb s admits layout
  obtain ⟨t, completes, returned, frame⟩ := exec_rd_drawn nb admits rfl
  refine ⟨t, _, completes, returned, frame, ?_⟩
  simp only [BitPlaces.tableWord_regWord layout]
  obtain ⟨busy, rxEmpty, txFull⟩ := statWord_bits s.busy s.rxEmpty s.txFull s.freeWord
  exact ⟨(Bool.eq_iff_iff.mp busy).trans s.busy_iff, (Bool.eq_iff_iff.mp rxEmpty).trans s.rxEmpty_iff,
    (Bool.eq_iff_iff.mp txFull).trans s.txFull_iff, statWord_free _ _ _ _⟩

/-! ### The receive path (R244, R246) -/

section
variable {s : State} {w : Word} {rest : List Word} {hold : Bool} {v : Word}

theorem auxReceive_of_cons (received : s.spi1.rxq = w :: rest) :
    auxReceive s = (w, s.withSpi1 { s.spi1 with rxq := rest }) := by
  rw [auxReceive, received]

theorem auxReceive_of_shifted (empty : s.spi1.rxq = []) (valid : s.spi1.srValid = true) :
    auxReceive s = (s.spi1.sr, s.withSpi1 { s.spi1 with srValid := false }) := by
  simp only [auxReceive, empty, valid, if_true]

theorem auxReceive_of_none (empty : s.spi1.rxq = []) (invalid : s.spi1.srValid = false) :
    auxReceive s = (s.freeWord, s.drawn) := by
  simp only [auxReceive, empty, invalid, Bool.false_eq_true, if_false]

/-! ### The transmit path (R245, R247) -/

theorem auxPush_of_cleared (clear : s.spi1.clearfifo = true) : auxPush hold v s = .refused .spi1WriteWhileCleared :=
  if_pos clear

theorem auxPush_of_full (opened : s.spi1.clearfifo = false) (full : s.spi1.txq.length = s.params.auxDepth) :
    auxPush hold v s = .refused .txFifoOverflow := by
  rw [auxPush, if_neg (by simp [opened]), if_pos full]

theorem auxPush_of_room (opened : s.spi1.clearfifo = false) (room : s.spi1.txq.length ≠ s.params.auxDepth) :
    auxPush hold v s = .next (s.withSpi1 { s.spi1 with txq := s.spi1.txq ++ [{ word := v, hold := hold }] }) := by
  rw [auxPush, if_neg (by simp [opened]), if_neg room]

end

/-- The registers of the receive path share their rule and their block. -/
theorem readRule_of_receive {r : Reg} (h : r = .io ∨ r = .txhold) : readRule r = auxReceive ∧ r.block = .spi1 := by
  obtain rfl | rfl := h <;> exact ⟨rfl, rfl⟩

/-- Settles O44: both registers read the receive path (`readRule_of_receive`), which has these three cases. -/
theorem spi1Receive : Obligations.Spi1Receive := by
  intro nb r s path admits
  obtain ⟨rule, block⟩ := readRule_of_receive path
  have completes := exec_rd_of_admits nb admits
  rw [rule, block] at completes
  refine ⟨fun w rest received => ?queued, fun empty valid => ?shifted, fun empty invalid => ?nothing⟩
  case queued => rw [completes, auxReceive_of_cons received]; rfl
  case shifted => rw [completes, auxReceive_of_shifted empty valid]; rfl
  case nothing =>
    rw [← block]
    exact exec_rd_drawn nb admits (by rw [rule, auxReceive_of_none empty invalid])

/-- The registers of the transmit path share their block and differ in the hold flag. -/
theorem writeRule_of_push (hold : Bool) (v : Word) :
    writeRule v (if hold then .txhold else .io) = auxPush hold v
      ∧ (if hold then Reg.txhold else .io).block = .spi1 ∧ variantOf (if hold then Reg.txhold else .io) = none := by
  cases hold <;> exact ⟨rfl, rfl, rfl⟩

/-- Settles O45: the rule of both registers is a push (`writeRule_of_push`), which has these three cases. -/
theorem spi1Queue : Obligations.Spi1Queue := by
  intro nb hold v s io r
  obtain ⟨rule, block, variant⟩ := writeRule_of_push hold v
  have admits : s.Admits r := io.sibling block variant
  have rule : writeRule v r s = auxPush hold v s := congrFun rule s
  refine ⟨fun clear => ?cleared, fun opened full => ?full, fun opened room => ?pushed⟩
  case cleared => exact exec_wr_refused nb admits (rule.trans (auxPush_of_cleared clear))
  case full => exact exec_wr_refused nb admits (rule.trans (auxPush_of_full opened full))
  case pushed =>
    have completes := exec_wr_next_of_rule nb admits (rule.trans (auxPush_of_room opened room))
    rw [block] at completes
    exact completes

/-! ### `SPI1.RXPUSH` (R254) -/

theorem State.rxPushEnabled_iff (s : State) : s.rxPushEnabled = true ↔
    s.aux.enb = true ∧ s.spi1.srValid = true ∧ s.spi1.rxq.length < s.params.auxDepth := by
  rw [State.rxPushEnabled, Bool.and_eq_true, Bool.and_eq_true, decide_eq_true_iff, and_assoc]

theorem rxPushStep_of_enabled {s : State} (enabled : s.rxPushEnabled = true) :
    rxPushStep s = s.withSpi1 { s.spi1 with rxq := s.spi1.rxq ++ [s.spi1.sr], srValid := false } := if_pos enabled

theorem rxPushStep_of_disabled {s : State} (disabled : ¬ s.rxPushEnabled = true) : rxPushStep s = s := if_neg disabled

/-- Settles O47, by the two cases of the step. -/
theorem spi1RxPushStep : Obligations.Spi1RxPushStep := fun s =>
  ⟨fun enabled => rxPushStep_of_enabled (s.rxPushEnabled_iff.mpr enabled),
    fun disabled => rxPushStep_of_disabled (mt s.rxPushEnabled_iff.mp disabled)⟩

/-! ### `SPI1.SHIFT` (R248, R249, R252) -/

theorem State.spi1ShiftEnabled_iff (s : State) : s.spi1ShiftEnabled = true ↔
    s.aux.enb = true ∧ s.spi1.enable = true ∧ s.spi1.clearfifo = false ∧ 0 < s.spi1.txq.length
      ∧ s.spi1.srValid = false := by
  simp only [State.spi1ShiftEnabled, Bool.and_eq_true, Bool.not_eq_true', List.isEmpty_eq_false_iff, List.length_pos_iff,
    and_assoc]

theorem Spi1.lengthOk_iff (a : Spi1) (n : Nat) :
    a.lengthOk n = true ↔ n = 8 ∨ n = 16 ∨ (a.varWidth = true ∧ n = 24) := by
  simp only [Spi1.lengthOk, Bool.or_eq_true, Bool.and_eq_true, beq_iff_eq, or_assoc]

/-- A length with a meaning is at most 24 bits. -/
theorem Spi1.lengthOk_le {a : Spi1} {n : Nat} (h : a.lengthOk n = true) : n ≤ 24 := by
  have := (a.lengthOk_iff n).mp h
  omega

section
variable {s : State} {e : AuxEntry} {rest : List AuxEntry}

theorem spi1ShiftStep_of_disabled (disabled : ¬ s.spi1ShiftEnabled = true) : spi1ShiftStep s = .next s := if_neg disabled

section
variable (enabled : s.spi1ShiftEnabled = true)
include enabled

theorem spi1ShiftStep_of_unmodelled (other : s.spi1.cntl0Other ≠ 0 ∨ s.spi1.cntl1Other ≠ 0) :
    spi1ShiftStep s = .refused .unmodelledControlBit := by
  rw [spi1ShiftStep, if_pos enabled, if_pos other]

variable (other0 : s.spi1.cntl0Other = 0) (other1 : s.spi1.cntl1Other = 0)
include other0 other1

theorem spi1ShiftStep_of_bitOrder (order : s.spi1.msbfOut = false ∨ s.spi1.msbfIn = false) :
    spi1ShiftStep s = .refused .unmodelledBitOrder := by
  rw [spi1ShiftStep, if_pos enabled, if_neg (by simp [other0, other1]), if_pos order]

/-- Past the checks of the control bits only the length of the oldest word decides. -/
theorem spi1ShiftStep_of_queued (orderOut : s.spi1.msbfOut = true) (orderIn : s.spi1.msbfIn = true)
    (queued : s.spi1.txq = e :: rest) : spi1ShiftStep s =
      if s.spi1.lengthOk (s.spi1.bitCount e.word) then .next (spi1Exchange e rest (s.spi1.bitCount e.word) s)
      else .refused .unmodelledShiftLength := by
  rw [spi1ShiftStep, if_pos enabled, if_neg (by simp [other0, other1]), if_neg (by simp [orderOut, orderIn]), queued]

end

/-! #### The bits of a transaction -/

variable {n j : Nat} {bits : BitVec 24}

/-- The bits sent are the `n` bits from bit 23 or 31 down (R248). -/
theorem shiftedBits_getLsbD (varWidth : Bool) (w : Word) (j : Nat) (hn : n ≤ 24) :
    (shiftedBits varWidth n w).getLsbD j = (decide (j < n) && w.getLsbD ((if varWidth = true then 24 else 32) - n + j)) := by
  rw [shiftedBits, BitVec.getLsbD_setWidth, BitVec.getLsbD_extractLsb']
  by_cases h : j < n
  · rw [decide_eq_true (by omega : j < 24), Bool.true_and]
  · simp only [h, decide_false, Bool.false_and, Bool.and_false]

/-- No bit is sent past the length. -/
theorem shiftedBits_getLsbD_of_ge (varWidth : Bool) (w : Word) (hn : n ≤ 24) (h : n ≤ j) :
    (shiftedBits varWidth n w).getLsbD j = false := by
  rw [shiftedBits_getLsbD varWidth w j hn, decide_eq_false (by omega), Bool.false_and]

theorem lowBits_getLsbD (v : BitVec 24) (j : Nat) : (lowBits n v).getLsbD j = (decide (j < n) && v.getLsbD j) := by
  rw [lowBits, BitVec.getLsbD_setWidth, BitVec.getLsbD_setWidth]
  by_cases h : j < 24
  · rw [decide_eq_true h, Bool.true_and]
  · rw [BitVec.getLsbD_of_ge v j (by omega), Bool.and_false, Bool.and_false]

theorem lowBits_getLsbD_of_lt (v : BitVec 24) (h : j < n) : (lowBits n v).getLsbD j = v.getLsbD j := by
  rw [lowBits_getLsbD, decide_eq_true h, Bool.true_and]

/-- A value without a bit from `n` up is its low `n` bits. -/
theorem lowBits_eq_self {v : BitVec 24} (h : ∀ j, n ≤ j → v.getLsbD j = false) : lowBits n v = v := by
  apply BitVec.eq_of_getLsbD_eq
  intro j _
  rw [lowBits_getLsbD]
  by_cases below : j < n
  · rw [decide_eq_true below, Bool.true_and]
  · rw [h j (by omega), Bool.and_false]

theorem State.spi1Answer_of_echo (routed : s.routed1 = true) (slave : s.env.slave1 = .echo) :
    s.spi1Answer n bits = lowBits n bits := by
  rw [State.spi1Answer, if_pos routed, slave]

theorem State.spi1Answer_of_const {c : BitVec 24} (routed : s.routed1 = true) (slave : s.env.slave1 = .const c) :
    s.spi1Answer n bits = lowBits n c := by
  rw [State.spi1Answer, if_pos routed, slave]

theorem State.spi1Answer_of_oracle (routed : s.routed1 = true) (slave : s.env.slave1 = .oracle) :
    s.spi1Answer n bits = lowBits n (Config.slave1 s.spi1.cspat n bits (!s.spi1.csheld) s.hist) := by
  rw [State.spi1Answer, if_pos routed, slave]

theorem State.spi1Answer_of_unrouted (unrouted : s.routed1 = false) :
    s.spi1Answer n bits = lowBits n (s.freeWord.setWidth 24) := if_neg (Bool.eq_false_iff.mp unrouted)

/-- Whatever the slave, the word received is an `n`-bit value (R249). -/
theorem State.spi1Answer_getLsbD_of_ge (s : State) (bits : BitVec 24) (h : n ≤ j) :
    (s.spi1Answer n bits).getLsbD j = false := by
  have short (v : BitVec 24) : (lowBits n v).getLsbD j = false := by
    rw [lowBits_getLsbD, decide_eq_false (by omega), Bool.false_and]
  unfold State.spi1Answer
  split
  · split <;> exact short _
  · exact short _

end

/-- Settles O46: the step by cases, where the bits sent are those of `shiftedBits` and the word received is the slave's
answer (`State.spi1Answer`). -/
theorem spi1ShiftStep_exchanges : Obligations.Spi1ShiftStep := by
  intro s a enabled
  have enabled_iff : s.spi1ShiftEnabled = true ↔ enabled := s.spi1ShiftEnabled_iff
  refine ⟨fun disabled => ?stays, fun enabled other => ?unmodelled, fun enabled other0 other1 order => ?order,
    fun enabled other0 other1 orderOut orderIn e rest queued => ?queued⟩
  case stays => exact spi1ShiftStep_of_disabled (mt enabled_iff.mp disabled)
  case unmodelled => exact spi1ShiftStep_of_unmodelled (enabled_iff.mpr enabled) other
  case order => exact spi1ShiftStep_of_bitOrder (enabled_iff.mpr enabled) other0 other1 order
  case queued =>
    intro n legal
    have legal_iff : a.lengthOk (a.bitCount e.word) = true ↔ legal := a.lengthOk_iff n
    rw [spi1ShiftStep_of_queued (enabled_iff.mpr enabled) other0 other1 orderOut orderIn queued]
    refine ⟨fun illegal => if_neg (mt legal_iff.mp illegal), fun ok => ?exchanged⟩
    have short : n ≤ 24 := Spi1.lengthOk_le (legal_iff.mpr ok)
    refine ⟨shiftedBits a.varWidth n e.word, s.spi1Answer n (shiftedBits a.varWidth n e.word),
      if_pos (legal_iff.mpr ok), fun j => shiftedBits_getLsbD _ _ j short, fun j => s.spi1Answer_getLsbD_of_ge _,
      fun routed slave => ?echo, fun c j routed slave h => ?const, fun j routed slave h => ?oracle,
      fun j unrouted h => ?unrouted⟩
    case echo =>
      rw [State.spi1Answer_of_echo routed slave, lowBits_eq_self fun j => shiftedBits_getLsbD_of_ge _ _ short]
    case const => rw [State.spi1Answer_of_const routed slave, lowBits_getLsbD_of_lt _ h]
    case oracle => rw [State.spi1Answer_of_oracle routed slave, lowBits_getLsbD_of_lt _ h]
    case unrouted =>
      rw [State.spi1Answer_of_unrouted unrouted, lowBits_getLsbD_of_lt _ h, BitVec.getLsbD_setWidth,
        decide_eq_true (by omega : j < 24), Bool.true_and]

/-! ### The gate (R231) -/

/-- A closed gate refuses, once line `order` passes. -/
theorem transact_of_gate_closed {s : State} {nb : Bool} {perform : State → Out} (off : s.aux.enb = false)
    (order : s.lastNb = none ∨ s.lastNb = some .spi1) : transact .spi1 nb perform s = .refused .spi1Disabled := by
  have closed : ¬ s.gateOk .spi1 = true := by simp [State.gateOk, off]
  rw [transact_of_order order, gated, if_neg closed]

/-- The registers of SPI1 exist in both generations (R103). -/
theorem variantOf_of_spi1 {r : Reg} (h : r.block = .spi1) : variantOf r = none := by
  cases r with
  | cntl0 | cntl1 | stat | io | txhold => rfl
  | _ => cases h

/-- Settles O8: the gate stops every transaction, and both engines ask for the enable. -/
theorem spi1Gate : Obligations.Spi1Gate := by
  intro s off
  have shiftOff : ¬ s.spi1ShiftEnabled = true := by simp [s.spi1ShiftEnabled_iff, off]
  have pushOff : ¬ s.rxPushEnabled = true := by simp [s.rxPushEnabled_iff, off]
  refine ⟨fun i block order => ?refused, Bool.eq_false_iff.mpr shiftOff, Bool.eq_false_iff.mpr pushOff,
    spi1ShiftStep_of_disabled shiftOff, rxPushStep_of_disabled pushOff⟩
  case refused =>
    have wf : i.wf s.params.variant = true := (wf_iff i _).mpr (.inl (variantOf_of_spi1 block))
    obtain ⟨perform, -, asTransaction⟩ := exec_eq_transact wf
    rw [asTransaction, block, transact_of_gate_closed off order]

/-! ### The order of received words (R255) -/

section
variable {a : Spi1} {w : Word}

theorem Spi1.unread_of_valid (h : a.srValid = true) : a.unread = a.rxq ++ [a.sr] := by rw [Spi1.unread, if_pos h]

theorem Spi1.unread_of_invalid (h : a.srValid = false) : a.unread = a.rxq := by
  rw [Spi1.unread, h, if_neg Bool.false_ne_true, List.append_nil]

/-- With nothing in the FIFO the one word unread is that of the shift register. -/
theorem Spi1.unread_of_nil {rest : List Word} (empty : a.rxq = []) (h : a.unread = w :: rest) :
    a.srValid = true ∧ a.sr = w ∧ rest = [] := by
  cases valid : a.srValid with
  | false => simp [Spi1.unread_of_invalid valid, empty] at h
  | true => simpa [Spi1.unread_of_valid valid, empty, eq_comm] using h

theorem Spi1.unread_of_cons {rest : List Word} (received : a.rxq = w :: rest) :
    a.unread = w :: { a with rxq := rest }.unread := by
  rw [Spi1.unread, received]
  rfl

/-- At most one word more than the FIFO holds. -/
theorem Spi1.unread_length_le (a : Spi1) : a.unread.length ≤ a.rxq.length + 1 := by
  cases valid : a.srValid with
  | false => simp [Spi1.unread_of_invalid valid]
  | true => simp [Spi1.unread_of_valid valid]

end

/-- The word moved into the FIFO stays the last one unread. -/
theorem rxPushStep_unread (s : State) : (rxPushStep s).spi1.unread = s.spi1.unread := by
  by_cases enabled : s.rxPushEnabled = true
  · obtain ⟨-, valid, -⟩ := s.rxPushEnabled_iff.mp enabled
    rw [rxPushStep_of_enabled enabled, Spi1.unread_of_valid valid]
    exact Spi1.unread_of_invalid rfl
  · rw [rxPushStep_of_disabled enabled]

/-- The engine shifts only into a free shift register, so the word received comes after those in the FIFO. -/
theorem spi1ShiftStep_unread {s t : State} (h : spi1ShiftStep s = .next t) :
    t.spi1.unread = s.spi1.unread ∨ ∃ w, t.spi1.unread = s.spi1.unread ++ [w] := by
  obtain ⟨-, rfl⟩ | ⟨enabled, -, -, -, -, e, rest, -, -, rfl⟩ := spi1ShiftStep_next h
  · exact .inl rfl
  · obtain ⟨-, -, -, -, free⟩ := s.spi1ShiftEnabled_iff.mp enabled
    rw [Spi1.unread_of_invalid free]
    exact .inr ⟨_, Spi1.unread_of_valid rfl⟩

/-- The receive path gives the first word unread and leaves the others. -/
theorem auxReceive_unread {s : State} {w : Word} {rest : List Word} (h : s.spi1.unread = w :: rest) :
    (auxReceive s).1 = w ∧ (auxReceive s).2.spi1.unread = rest := by
  cases received : s.spi1.rxq with
  | nil =>
    obtain ⟨valid, rfl, rfl⟩ := Spi1.unread_of_nil received h
    rw [auxReceive_of_shifted received valid]
    exact ⟨rfl, (Spi1.unread_of_invalid rfl).trans received⟩
  | cons x queue =>
    rw [Spi1.unread_of_cons received] at h
    obtain ⟨rfl, rfl⟩ := List.cons.inj h
    rw [auxReceive_of_cons received]
    exact ⟨rfl, rfl⟩

/-- Settles O48: one lemma per step, and the bound of the FIFO from the invariant. -/
theorem receiveOrder : Obligations.ReceiveOrder := by
  refine ⟨rxPushStep_unread, fun s t => spi1ShiftStep_unread, fun s t nb w rest unread completes => ?read,
    fun s inv => ?bound⟩
  case read =>
    obtain ⟨-, rfl⟩ := exec_rd_next completes
    obtain ⟨first, others⟩ := auxReceive_unread unread
    exact ⟨congrArg some first, others⟩
  case bound => exact s.spi1.unread_length_le.trans (Nat.succ_le_succ inv.spi1Sound.rxq)

/-! ### The groups of a buffer (R256) -/

/-- What is left of a buffer after its first group is cut as a buffer of its own. -/
theorem byteGroups_of_ne_nil {tx : List Byte} (h : tx ≠ []) :
    byteGroups tx = tx.take auxGroupMax :: byteGroups (tx.drop auxGroupMax) := by
  match tx, h with
  | [_], _ | [_, _], _ | _ :: _ :: _ :: _, _ => rfl

@[simp] theorem byteGroups_eq_nil {tx : List Byte} : byteGroups tx = [] ↔ tx = [] := by
  refine ⟨fun h => ?_, fun h => h ▸ rfl⟩
  by_contra nonempty
  rw [byteGroups_of_ne_nil nonempty] at h
  cases h

/-- Induction along the groups of a buffer. -/
theorem byteGroups_induction {P : List Byte → Prop} (nil : P [])
    (group : ∀ tx, tx ≠ [] → P (tx.drop auxGroupMax) → P tx) : ∀ tx, P tx
  | [] => nil
  | [_] => group _ (by simp) nil
  | [_, _] => group _ (by simp) nil
  | _ :: _ :: _ :: rest => group _ (by simp) (byteGroups_induction nil group rest)

theorem byteGroups_flatten (tx : List Byte) : (byteGroups tx).flatten = tx := by
  induction tx using byteGroups_induction with
  | nil => rfl
  | group tx nonempty ih => rw [byteGroups_of_ne_nil nonempty, List.flatten_cons, ih, List.take_append_drop]

theorem byteGroups_length (tx : List Byte) : (byteGroups tx).length = (tx.length + 2) / 3 := by
  induction tx using byteGroups_induction with
  | nil => rfl
  | group tx nonempty ih =>
    have := List.length_pos_iff.mpr nonempty
    rw [byteGroups_of_ne_nil nonempty, List.length_cons, ih, List.length_drop, auxGroupMax]
    omega

theorem byteGroups_mem_length (tx : List Byte) : ∀ g ∈ byteGroups tx, 1 ≤ g.length ∧ g.length ≤ 3 := by
  induction tx using byteGroups_induction with
  | nil => nofun
  | group tx nonempty ih =>
    have := List.length_pos_iff.mpr nonempty
    rw [byteGroups_of_ne_nil nonempty, List.forall_mem_cons, List.length_take, auxGroupMax]
    exact ⟨by omega, ih⟩

/-- A group with a group after it is full, since bytes are left. -/
theorem byteGroups_dropLast_length (tx : List Byte) : ∀ g ∈ (byteGroups tx).dropLast, g.length = 3 := by
  induction tx using byteGroups_induction with
  | nil => nofun
  | group tx nonempty ih =>
    rw [byteGroups_of_ne_nil nonempty]
    by_cases last : tx.drop auxGroupMax = []
    · rw [last]
      nofun
    · rw [List.dropLast_cons_of_ne_nil (mt byteGroups_eq_nil.mp last), List.forall_mem_cons, List.length_take]
      rw [List.drop_eq_nil_iff, auxGroupMax] at last
      exact ⟨by rw [auxGroupMax]; omega, ih⟩

/-- The top byte of a group's word is its size in bits (R115). -/
theorem packGroup_size (g : List Byte) : (packGroup g).extractLsb' 24 8 = BitVec.ofNat 8 (8 * g.length) := by
  unfold packGroup
  simp (disch := decide) only [slice_append_hi]
  exact slice_full _

/-! #### `aux_write_buf` (R321) -/

/-- The words queued for a list of groups: the last to `SPI1.IO`, the others to `SPI1.TXHOLD`. -/
def queuedGroups (o : BitOrder) (gs : List (List Byte)) : List (Reg × Word) :=
  gs.dropLast.map (fun g => (Reg.txhold, groupWord o g)) ++ gs.getLast?.toList.map fun g => (Reg.io, groupWord o g)

theorem queuedGroups_cons (o : BitOrder) (g : List Byte) (gs : List (List Byte)) :
    queuedGroups o (g :: gs) = (groupReg gs.isEmpty, groupWord o g) :: queuedGroups o gs := by
  cases gs with
  | nil => rfl
  | cons g' gs => simp [queuedGroups, groupReg, List.getLast?_cons_cons]

/-- A group's two polls and its discarded read queue nothing. -/
theorem auxWriteGroupsOps_queued (l : BitLayout) (o : BitOrder) (gs : List (List Byte)) :
    (auxWriteGroupsOps l o gs).filterMap HostOp.queuedWord = queuedGroups o gs := by
  induction gs with
  | nil => rfl
  | cons g gs ih =>
    rw [queuedGroups_cons, ← ih]
    cases gs <;> rfl

/-! #### `aux_transfer_buf` (R322) -/

/-- The fill loop sees the FIFO full exactly when bit 10 of the status is set, wherever it is placed. -/
theorem State.statSet_txFull {s : State} {v : Word} (layout : s.params.layout.stat.wf = true) :
    s.statSet v statTXFULL = (s.params.layout.stat.tableWord v).getLsbD 10 := by
  have bit : statTXFULL = BitVec.twoPow 32 10 := rfl
  rw [State.statSet, BitPlaces.anySet_regWord layout, anySet, bit, BitVec.and_twoPow]
  cases (s.params.layout.stat.tableWord v).getLsbD 10 <;> rfl

/-- Settles O53, by induction along the groups; the control words `aux_write_buf` starts with queue nothing, and a round of
the fill loop cuts the buffer as `byteGroups` does (`byteGroups_of_ne_nil`). -/
theorem groupLaw : Obligations.GroupLaw := by
  intro tx
  refine ⟨byteGroups_flatten tx, byteGroups_length tx, byteGroups_dropLast_length tx,
    fun g member => ?sizes, fun p c => auxWriteGroupsOps_queued p.layout c.bitOrder _,
    fun g gs rx v s cut layout room => ?fill⟩
  case sizes =>
    obtain ⟨least, most⟩ := byteGroups_mem_length tx g member
    exact ⟨least, most, packGroup_size g⟩
  case fill =>
    have nonempty : tx ≠ [] := fun empty => by simp [empty] at cut
    rw [byteGroups_of_ne_nil nonempty] at cut
    obtain ⟨rfl, rfl⟩ := List.cons.inj cut
    refine ⟨tx.drop auxGroupMax, rfl, ?round, fun u => ?queued⟩
    case round => rw [resume, State.statSet_txFull layout, room, if_neg Bool.false_ne_true]
    case queued =>
      simp only [hostOp, auxPushGroup, groupReg, List.isEmpty_iff, byteGroups_eq_nil]

end Sys2Proof.Machine
end

section
/-! SUPPORT. The sequences of spec/45_sequences_gpio_timer.md: what a call requires of its operands and handles (R272, R273),
`read_counter` and the hybrid delay (R290 to R292), `select_function` (R274), and the Legacy pull protocol (R295): the
statements about them. -/

namespace Sys2Proof.Machine

/-! ### What a transaction leaves, field by field -/

section
variable {b : Block} {nb : Bool} {s t : State} (h : Untouched b nb s t)
include h

theorem Untouched.params : t.params = s.params := by rw [Untouched] at h; rw [h]

theorem Untouched.gpio : t.gpio = s.gpio := by rw [Untouched] at h; rw [h]

/-- After a transaction that touched no field a register of its block is still accessible. -/
theorem Untouched.admits {r : Reg} (admits : s.Admits r) (block : r.block = b) : t.Admits r := by
  subst block
  exact admits.again h.params (by rw [Untouched] at h; rw [h]) (by rw [Untouched] at h; rw [h])

end

section
variable {nb : Bool} {s t : State} (h : OnlyGpio nb s t)
include h

theorem OnlyGpio.params : t.params = s.params := by rw [OnlyGpio] at h; rw [h]

theorem OnlyGpio.cnt : t.cnt = s.cnt := by rw [OnlyGpio] at h; rw [h]

/-- After a transaction that kept to the block its registers are still accessible. -/
theorem OnlyGpio.admits {r : Reg} (admits : s.Admits r) (block : r.block = .gpio) : t.Admits r :=
  admits.again (nb := nb) h.params (by rw [OnlyGpio] at h; rw [h]) (by rw [OnlyGpio] at h; rw [h, block])

end

/-! ### `read_counter` (R290, R293) -/

/-- The high half of the count numbers the periods of the low half. -/
theorem counterHigh_eq (t : Nat) : (BitVec.ofNat 64 t).extractLsb' 32 32 = BitVec.ofNat 32 (t / 2 ^ 32) := by
  apply BitVec.eq_of_toNat_eq
  simp only [BitVec.extractLsb'_toNat, BitVec.toNat_ofNat, Nat.shiftRight_eq_div_pow]
  omega

/-- The high half read at one instant and the low half read at another are the count at the second when both lie in one
period of the low half. -/
theorem counterHigh_append_low {t t' : Nat} (h : t / 2 ^ 32 = t' / 2 ^ 32) :
    (BitVec.ofNat 64 t).extractLsb' 32 32 ++ (BitVec.ofNat 64 t').extractLsb' 0 32 = BitVec.ofNat 64 t' := by
  rw [counterHigh_eq, h, ← counterHigh_eq, slice_join _ 32 32 0 32 rfl, slice_full]

/-- Two instants less than a period of the low half apart have the same high half only within one period: the
high half does not come round again. -/
theorem counterHigh_eq_iff {t t' : Nat} (le : t ≤ t') (near : t' - t < 2 ^ 32) :
    (BitVec.ofNat 64 t').extractLsb' 32 32 = (BitVec.ofNat 64 t).extractLsb' 32 32 ↔ t' / 2 ^ 32 = t / 2 ^ 32 := by
  rw [counterHigh_eq, counterHigh_eq, ← BitVec.toNat_inj, BitVec.toNat_ofNat, BitVec.toNat_ofNat]
  omega

/-- With the timer unmapped `read_counter` touches no register and keeps 0. -/
theorem startCounter_of_unmapped {s : State} (h : s.host.ctx.handles.st = false) : startCounter s = s.counted 0 :=
  if_neg (Bool.eq_false_iff.mp h)

/-- Settles O33: less than `2^32` ticks hold at most one rollover of the low half, so with equal high halves it lies
outside the three reads, and with different ones before the third (`counterHigh_eq_iff`). -/
theorem readCounterMeaning : Obligations.ReadCounterMeaning := by
  refine ⟨fun s v lo₁ => ⟨rfl, fun mapped => ?mapped, fun unmapped => ?unmapped, rfl, rfl, rfl⟩,
    fun s t nb r k v completes returned => hostOp_rd_of_next completes returned k,
    fun s u t₁ t₂ t₃ t₄ le₁₂ le₂₃ le₃₄ near => ⟨fun same => ?agree, fun differ => ⟨?again, ?differ⟩⟩⟩
  case mapped => rw [hostOp, startCounter, if_pos mapped]
  case unmapped => rw [hostOp, startCounter_of_unmapped unmapped]
  case agree =>
    have period : t₃ / 2 ^ 32 = t₁ / 2 ^ 32 := (counterHigh_eq_iff (by omega) (by omega)).mp same
    have period₂ : t₁ / 2 ^ 32 = t₂ / 2 ^ 32 := by omega
    rw [resume, if_pos same, counterHigh_append_low period₂]
  case again => rw [resume, if_neg differ]
  case differ =>
    have rolled : t₃ / 2 ^ 32 ≠ t₁ / 2 ^ 32 := mt (counterHigh_eq_iff (by omega) (by omega)).mpr differ
    have period₄ : t₃ / 2 ^ 32 = t₄ / 2 ^ 32 := by omega
    rw [resume, counterHigh_append_low period₄]

/-! ### The hybrid delay (R291, R292) -/

section
variable {s : State} {d : BitVec 64}

theorem startDelay_of_no_count (h : s.host.counter = 0) : startDelay d s = s.push [.sleep d.toNat] := if_pos h

theorem startDelay_of_long (h : s.host.counter ≠ 0) (long : sleepThreshold < d) : startDelay d s =
    s.push (.sleep (d - sleepMargin).toNat :: delayUntilOps (s.host.counter + d)) := by
  rw [startDelay, if_neg h, if_pos long]

theorem startDelay_of_short (h : s.host.counter ≠ 0) (short : ¬ sleepThreshold < d) :
    startDelay d s = s.push (delayUntilOps (s.host.counter + d)) := by
  rw [startDelay, if_neg h, if_neg short]

/-- A duration above the threshold is above the margin too, so the sleep's length does not wrap. -/
theorem sub_sleepMargin_toNat (long : sleepThreshold < d) : (d - sleepMargin).toNat = d.toNat - 200 := by
  have above : 450 < d.toNat := long
  have margin : sleepMargin.toNat = 200 := rfl
  exact BitVec.toNat_sub_of_le (BitVec.le_def.mpr (by omega))

end

/-- The timer counts microseconds (R191), so a sleep of `d` lasts `d` ticks. -/
theorem sleepTicks_eq (d : Nat) : sleepTicks d = d := by
  rw [sleepTicks, timerHz]
  omega

/-- Each tick takes one off a running sleep. -/
theorem timerStep_iterate_sleepLeft (k : Nat) (s : State) :
    (timerStep^[k] s).host.sleepLeft = s.host.sleepLeft - k := by
  induction k generalizing s with
  | zero => rfl
  | succ k ih =>
    rw [Function.iterate_succ_apply, ih, timerStep, State.withHost_host]
    simp only
    omega

/-- While a sleep lasts the host stands still (R60). -/
theorem hostStep_of_asleep {s : State} (h : s.host.sleepLeft ≠ 0) : hostStep s = .next s := if_pos h

/-- Settles O56, by the three cases of `startDelay`; a sleep ends no sooner than its ticks have passed
(`timerStep_iterate_sleepLeft`). -/
theorem hybridDelay : Obligations.HybridDelay := by
  refine ⟨fun s d => ⟨startDelay_of_no_count, fun counted long => ?long, fun counted short => ?short⟩,
    fun s target => rfl, fun s d k awake before => hostStep_of_asleep ?asleep⟩
  case long => rw [startDelay_of_long counted long, sub_sleepMargin_toNat long, delayUntilOps]
  case short => exact startDelay_of_short counted (Nat.not_lt.mpr short)
  case asleep =>
    rw [timerStep_iterate_sleepLeft, sleepStep, State.withHost_host, awake, sleepTicks_eq]
    simp only
    omega

/-! ### `select_function` (R274, R296) -/

/-- With distinct codes two modes with one code are one mode. -/
theorem FselCodes.code_injective {c : FselCodes} (hc : c.wf = true) : Function.Injective c.code :=
  Function.LeftInverse.injective (FselCodes.decode_code hc)

/-- What `set_bits` writes back to a function-select register has the new code in the field of its pin and the old one in
the field of every other pin of the register. -/
theorem maskedMerge_fsel (v : Word) (code : BitVec 3) {pin q : Pin} (member : q.val / 10 = pin.val / 10) :
    (maskedMerge v (code.setWidth 32 <<< shift3 pin.val) (7#32 <<< shift3 pin.val)).extractLsb' (shift3 q.val) 3 =
      if q = pin then code else v.extractLsb' (shift3 q.val) 3 := by
  split
  · rename_i same
    rw [same]
    exact maskedMerge_field v _ code _ seven_getLsbD (by unfold shift3; omega)
  · rename_i other
    have apart : q.val ≠ pin.val := fun e => other (Fin.ext e)
    exact maskedMerge_other v _ code _ _ 3 seven_getLsbD (by unfold shift3; omega)

theorem fselReg_eq {pin : Pin} {n : Fin 6} (h : n.val = pin.val / 10) : fselReg pin.val = .gpfsel n := by
  have : Fin.ofNat 6 (pin.val / 10) = n := Fin.ext (by rw [Fin.val_ofNat]; omega)
  rw [fselReg, this]

/-- Settles O50: the read and the write complete as O13 and O14 say, and the word between them differs from the one read in
the field of the pin only (`maskedMerge_fsel`). -/
theorem selectFunction : Obligations.SelectFunction := by
  intro s pin n mode hn admits codes value mask read
  obtain ⟨t, v, reads, returned, untouched, fields, -⟩ := functionSelectRead n false s admits
  obtain ⟨u, writes, -, -, others, -, -, written, kept⟩ :=
    functionSelectWrite n false (maskedMerge v value mask) t (untouched.admits admits rfl)
      (by rwa [untouched.params])
  rw [untouched.gpio] at others kept
  rw [untouched.params] at written
  have field (q : Pin) (member : q.val / 10 = n.val) : s.params.fselCodes.code (u.gpio.fsel.get q) =
      if q = pin then s.params.fselCodes.code mode else s.params.fselCodes.code (s.gpio.fsel.get q) := by
    rw [← fields q member]
    exact (written q member).trans (maskedMerge_fsel v _ (member.trans hn))
  refine ⟨?unfolds, t, u, v, reads, returned, hostOp_rd_of_next reads returned _, writes, ?pin, fun q other => ?other, ?out⟩
  case unfolds => rw [Call.ops, selectOps, fselReg_eq hn]; rfl
  case pin => exact FselCodes.code_injective codes ((field pin hn.symm).trans (if_pos rfl))
  case other =>
    by_cases member : q.val / 10 = n.val
    · exact FselCodes.code_injective codes ((field q member).trans (if_neg other))
    · exact kept q member
  case out => rw [others]

/-! ### What a sequence requires (R272, R273, R344) -/

section
variable {c : Call} {s : State}

theorem startCall_of_refusal {r : Refusal} (operands : c.operandRefusal s.params s.host.ctx.variant = some r) :
    startCall c s = .refused r := by
  simp only [startCall, operands]

/-- The first unmapped block a sequence needs is the one it faults for. -/
theorem startCall_of_unmapped {before after : List Block} {b : Block}
    (operands : c.operandRefusal s.params s.host.ctx.variant = none)
    (needs : c.needs s.host.ctx.variant = before ++ b :: after)
    (mapped : ∀ a ∈ before, s.host.ctx.handles.mapped a = true) (unmapped : s.host.ctx.handles.mapped b = false) :
    startCall c s = .fault (.unmappedAccess b) := by
  have first : (c.needs s.host.ctx.variant).find? (fun b => !s.host.ctx.handles.mapped b) = some b :=
    List.find?_eq_some_iff_append.mpr ⟨by simp [unmapped], before, after, needs, by simpa using mapped⟩
  simp only [startCall, operands, first]

theorem startCall_of_mapped (operands : c.operandRefusal s.params s.host.ctx.variant = none)
    (mapped : ∀ b ∈ c.needs s.host.ctx.variant, s.host.ctx.handles.mapped b = true) :
    startCall c s = .next (beginCall c s) := by
  have none : (c.needs s.host.ctx.variant).find? (fun b => !s.host.ctx.handles.mapped b) = none :=
    List.find?_eq_none.mpr (by simpa using mapped)
  simp only [startCall, operands, none]

/-- A sequence that needs no handle starts. -/
theorem startCall_of_no_needs (operands : c.operandRefusal s.params s.host.ctx.variant = none)
    (needs : c.needs s.host.ctx.variant = []) : startCall c s = .next (beginCall c s) :=
  startCall_of_mapped operands (by rw [needs]; nofun)

end

theorem checkPin_of_ge {pin : Nat} (h : 54 ≤ pin) : checkPin pin = some .pinOutOfRange := if_neg (Nat.not_lt.mpr h)

theorem checkPin_of_lt {pin : Nat} (h : pin < 54) : checkPin pin = none := if_pos h

section
variable {c : Call} {pin : Nat} {p : Params} {v : PudVariant} (operand : c.pinOperand = some pin)
include operand

theorem Call.operandRefusal_of_pin_ge (h : 54 ≤ pin) : c.operandRefusal p v = some .pinOutOfRange := by
  cases c <;> cases operand <;> simp only [Call.operandRefusal, checkPin_of_ge h]

theorem Call.operandRefusal_of_pin_lt (h : pin < 54) (mode : v = .legacy → c ≠ .setPull pin none) :
    c.operandRefusal p v = none := by
  cases c
  case setPull pin' m =>
    cases operand
    cases v with
    | modern => simp only [Call.operandRefusal, checkPin_of_lt h]
    | legacy =>
      cases m with
      | none => exact absurd rfl (mode rfl)
      | some m => simp only [Call.operandRefusal, checkPin_of_lt h]
  all_goals cases operand <;> exact checkPin_of_lt h

/-- A sequence called for a pin needs the GPIO block; only the Legacy `get_pull` does without it (R285). -/
theorem Call.needs_of_pin (touches : v = .legacy → c ≠ .getPull pin) : c.needs v = [.gpio] := by
  cases c
  case getPull =>
    cases operand
    cases v with
    | legacy => exact absurd rfl (touches rfl)
    | modern => rfl
  all_goals cases operand <;> rfl

end

/-- The operands of a sequence are in range. -/
structure Call.InRange (p : Params) (v : PudVariant) (c : Call) : Prop where
  pin : ∀ pin, c.pinOperand = some pin → pin < 54
  group : ∀ g bits, p.padGroups.length ≤ g → c ≠ .getPadControl g ∧ c ≠ .setPadControl g bits
  mode : ∀ pin, v = .legacy → c ≠ .setPull pin none
  frequency : c ≠ .spi0SetSpeedHz 0

theorem Call.operandRefusal_of_inRange {c : Call} {p : Params} {v : PudVariant} (h : c.InRange p v) :
    c.operandRefusal p v = none := by
  cases operand : c.pinOperand with
  | some pin => exact operandRefusal_of_pin_lt operand (h.pin pin operand) (h.mode pin)
  | none =>
    cases c
    case getPadControl g => exact if_pos (Nat.lt_of_not_le fun out => (h.group g 0 out).1 rfl)
    case setPadControl g bits => exact if_pos (Nat.lt_of_not_le fun out => (h.group g bits out).2 rfl)
    case spi0SetSpeedHz hz => exact if_neg fun zero => h.frequency (congrArg _ zero)
    case selectFunction | write | readLevel | eventEnable | eventDisable | eventDetected | clearEvent | setPull | getPull
        | pudclk => cases operand
    all_goals rfl

/-- The sequences that issue no transaction need no handle and refuse no operand. -/
theorem startCall_of_answerOnly (s : State) (resolved : Handles) (o : BitOrder) (n : Nat) (b : Byte) (c : Call)
    (h : c ∈ ([.init resolved, .close, .setBitOrder o, .auxCalcDivider n, .auxSetDivider n, .bitReverse b, .order b]
      : List Call)) :
    startCall c s = .next (beginCall c s) ∧ ∀ op ∈ Call.ops s.params s.host.ctx c, ∃ a : Answer, op = .answer a := by
  simp only [List.mem_cons, List.not_mem_nil, or_false] at h
  rcases h with rfl | rfl | rfl | rfl | rfl | rfl | rfl <;>
    exact ⟨startCall_of_no_needs rfl rfl, by simp [Call.ops]⟩

/-- Settles O55: operands by `Call.operandRefusal`, then handles by `Call.needs`, in that order. -/
theorem callPreconditions : Obligations.CallPreconditions := by
  intro s h v groups
  refine ⟨fun c pin operand out => startCall_of_refusal (Call.operandRefusal_of_pin_ge operand out),
    fun g bits out => ?groupOut, fun legacy pin low => ?noMode, startCall_of_refusal rfl,
    fun c pin group mode frequency mapped => ?starts,
    fun unmapped => ⟨fun c pin operand low touches => ?pinCall, fun x m => ?_, fun m legacy => ?pud, ?_, ?_, ?_⟩,
    fun unmapped => ⟨fun hz positive => ?speed, fun d => ?_, fun m => ?_, fun cs => ?_, fun i active => ?_, fun b => ?_,
      fun tx => ⟨?_, ?_⟩, fun mapped => ?spi0Begin⟩,
    fun mapped unmapped => ?auxBegin,
    fun unmapped => ⟨?_, fun d => ?_, fun b => ?_, fun tx => ⟨?_, ?_⟩, fun mapped mappedAux => ?auxBeginLast⟩,
    fun nb r x m unmapped => startCall_of_unmapped (before := []) rfl rfl (List.forall_mem_nil _) unmapped,
    fun legacy pin low => ?getPull, fun modern m => ?pudModern, fun unmapped g bits low => ?pads, fun unmapped => ?timer,
    fun g bits low => ?padsStart, fun offset duration c member => ?delays, startCall_of_answerOnly s⟩
  case groupOut =>
    have outside : ¬ g < s.params.padGroups.length := Nat.not_lt.mpr out
    exact ⟨startCall_of_refusal (if_neg outside), startCall_of_refusal (if_neg outside)⟩
  case noMode =>
    have variant : s.host.ctx.variant = .legacy := legacy
    exact startCall_of_refusal (by simp only [Call.operandRefusal, checkPin_of_lt low, variant])
  case starts =>
    exact startCall_of_mapped (Call.operandRefusal_of_inRange ⟨pin, group, mode, frequency⟩) fun b _ => mapped b
  case pinCall =>
    exact startCall_of_unmapped (before := [])
      (Call.operandRefusal_of_pin_lt operand low fun legacy => (touches legacy).1)
      (Call.needs_of_pin operand fun legacy => (touches legacy).2) (List.forall_mem_nil _) unmapped
  case pud =>
    have variant : s.host.ctx.variant = .legacy := legacy
    have needs : (Call.pud m).needs s.host.ctx.variant = [.gpio] := by rw [variant]; rfl
    exact startCall_of_unmapped (before := []) rfl needs (List.forall_mem_nil _) unmapped
  case speed => exact startCall_of_unmapped (before := []) (if_neg positive) rfl (List.forall_mem_nil _) unmapped
  case spi0Begin => exact startCall_of_unmapped (before := [.gpio]) rfl rfl (List.forall_mem_singleton.mpr mapped) unmapped
  case auxBegin => exact startCall_of_unmapped (before := [.gpio]) rfl rfl (List.forall_mem_singleton.mpr mapped) unmapped
  case auxBeginLast =>
    exact startCall_of_unmapped (before := [.gpio, .aux]) rfl rfl
      (List.forall_mem_cons.mpr ⟨mapped, List.forall_mem_singleton.mpr mappedAux⟩) unmapped
  case getPull =>
    have variant : s.host.ctx.variant = .legacy := legacy
    have needs : (Call.getPull pin).needs s.host.ctx.variant = [] := by rw [variant]; rfl
    exact ⟨startCall_of_no_needs (checkPin_of_lt low) needs, by simp only [Call.ops, variant]⟩
  case pudModern =>
    have variant : s.host.ctx.variant = .modern := modern
    have needs : (Call.pud m).needs s.host.ctx.variant = [] := by rw [variant]; rfl
    exact ⟨startCall_of_no_needs rfl needs, by simp only [Call.ops, variant]⟩
  case pads =>
    have off : ¬ s.host.ctx.handles.pads = true := Bool.eq_false_iff.mp unmapped
    exact ⟨if_neg off, if_neg off⟩
  case timer => rw [hostOp, startCounter_of_unmapped unmapped]
  case padsStart => exact ⟨startCall_of_no_needs (if_pos low) rfl, startCall_of_no_needs (if_pos low) rfl⟩
  case delays =>
    simp only [List.mem_cons, List.not_mem_nil, or_false] at member
    rcases member with rfl | rfl | rfl <;> exact startCall_of_no_needs rfl rfl
  all_goals exact startCall_of_unmapped (before := []) rfl rfl (List.forall_mem_nil _) unmapped

/-! ### The Legacy pull protocol (R283, R295) -/

section
variable {p : Params} (h : p.wf = true)
include h

/-- The ranges R107 and R283 give the Legacy pull codes. -/
theorem Params.pudCodes_ranges : p.pudCodes.off = 0 ∧ p.pudCodes.up ≠ 0 ∧ p.pudCodes.down ≠ 0
    ∧ p.pudCodes.up ≠ p.pudCodes.down ∧ p.pudCodes.up ≠ 3 ∧ p.pudCodes.down ≠ 3 := by
  simp only [Params.wf, Bool.and_eq_true, beq_iff_eq, bne_iff_ne, and_assoc] at h
  obtain ⟨-, -, -, off, up, down, differ, upKept, downKept, -⟩ := h
  exact ⟨off, up, down, differ, upKept, downKept⟩

/-- With distinct codes a pull mode is read back from its code. -/
theorem Params.pudCodes_decode_code (m : Pull) : p.pudCodes.decode (p.pudCodes.code m) = some m := by
  obtain ⟨off, up, down, differ, -, -⟩ := Params.pudCodes_ranges h
  cases m with
  | off => exact if_pos rfl
  | up => exact (if_neg (off ▸ up)).trans (if_pos rfl)
  | down => exact (if_neg (off ▸ down)).trans ((if_neg differ.symm).trans (if_pos rfl))

theorem Params.pudCodes_code_ne_reserved (m : Pull) : p.pudCodes.code m ≠ 3 := by
  obtain ⟨off, -, -, -, up, down⟩ := Params.pudCodes_ranges h
  cases m with
  | off => rw [PudCodes.code, off]; decide
  | up => exact up
  | down => exact down

/-- The control word of a mode carries its code, wherever its bits are placed. -/
theorem Params.controlWord_code (m : Pull) :
    (p.layout.gppud.tableWord (p.layout.gppud.regWord ((p.pudCodes.code m).setWidth 32))).extractLsb' 0 2
      = p.pudCodes.code m := by
  obtain ⟨layout, -⟩ := BitLayout.wf_iff.mp (Params.layout_wf h)
  rw [BitPlaces.tableWord_regWord layout]
  generalize p.pudCodes.code m = code
  revert code
  decide

end

/-- Waiting closes no register. -/
theorem State.Admits.withCnt {s : State} {r : Reg} (h : s.Admits r) (c : BitVec 64) : (s.withCnt c).Admits r :=
  ⟨h.exists_, h.order, h.gate⟩

/-- `k` ticks after an instant `k` ticks have passed, a wrap of the counter included. -/
theorem elapsed_toNat (i : BitVec 64) {k : Nat} (h : k < 2 ^ 64) : (i + BitVec.ofNat 64 k - i).toNat = k := by
  rw [add_sub_cancel_left, BitVec.toNat_ofNat, Nat.mod_eq_of_lt h]

/-- The bit of a pin in the mask of a pin of its register. -/
theorem pinMask_getLsbD {pin q : Pin} (member : q.val / 32 = pin.val / 32) :
    (pinMask pin.val).getLsbD (q.val % 32) = decide (q = pin) := by
  have same : q.val % 32 = pin.val % 32 ↔ q = pin := by rw [Fin.ext_iff]; omega
  have one : pinMask pin.val = BitVec.twoPow 32 (pin.val % 32) := (BitVec.twoPow_eq 32 _).symm
  rw [one, BitVec.getLsbD_twoPow, decide_eq_true (Nat.mod_lt _ (by decide)), Bool.true_and]
  exact decide_eq_decide.mpr (eq_comm.trans same)

/-! #### The four writes -/

/-- No latch is armed; one that has fired may stand. -/
def State.Disarmed (s : State) : Prop :=
  ∀ (q : Pin) (m : BitVec 2) (i : BitVec 64) (ok : Bool), s.gpio.arm.get q ≠ .armed m i ok

/-- The latch of `pin` is armed with the code `m` at this instant, its setup time met, and no other latch is. -/
structure State.ArmedOnly (s : State) (pin : Pin) (m : BitVec 2) : Prop where
  clocked : s.gpio.pudclk.getLsbD pin = true
  armed : s.gpio.arm.get pin = .armed m s.cnt true
  others : ∀ q : Pin, q ≠ pin → ∀ (m' : BitVec 2) (i : BitVec 64) (ok : Bool), s.gpio.arm.get q ≠ .armed m' i ok

/-- A latch that is not armed is not due. -/
theorem latchDue_of_not_armed {s : State} {q : Pin} (h : ∀ m i ok, s.gpio.arm.get q ≠ .armed m i ok) :
    s.latchDue q = false := by
  rw [Bool.eq_false_iff, ne_eq, latchDue_iff]
  rintro ⟨-, -, m, i, ok, armed, -⟩
  exact h m i ok armed

theorem State.Disarmed.settle {s : State} (h : s.Disarmed) :
    (settle s).Disarmed ∧ (settle s).gpio.pull = s.gpio.pull := by
  obtain ⟨arm, pull⟩ := settle_idle fun q => latchDue_of_not_armed (h q)
  exact ⟨fun q => arm ▸ h q, pull⟩

/-- When the hold time of the one armed latch has passed, `settle()` gives its pin the mode of its code and leaves every
other pull (R181). -/
theorem State.ArmedOnly.settle_after {s : State} {pin : Pin} {m : BitVec 2} {mode : Pull} {k : Nat} (h : s.ArmedOnly pin m)
    (legacy : s.params.variant = .legacy) (code : s.params.pudCodes.decode m = some mode)
    (held : s.params.tPudTicks ≤ k) (short : k < 2 ^ 64) :
    let u := settle (s.withCnt (s.cnt + BitVec.ofNat 64 k))
    u.Disarmed ∧ u.gpio.pull.get pin = mode ∧ ∀ q : Pin, q ≠ pin → u.gpio.pull.get q = s.gpio.pull.get q := by
  intro u
  have due : (s.withCnt (s.cnt + BitVec.ofNat 64 k)).latchDue pin = true :=
    (latchDue_iff _ _).mpr ⟨legacy, h.clocked, m, s.cnt, true, h.armed, held.trans_eq (elapsed_toNat s.cnt short).symm⟩
  have idle (q : Pin) (other : q ≠ pin) : (s.withCnt (s.cnt + BitVec.ofNat 64 k)).latchDue q = false :=
    latchDue_of_not_armed (h.others q other)
  refine ⟨fun q => ?disarmed, ?pull, fun q other => ?kept⟩
  case disarmed =>
    rw [settle_arm]
    by_cases same : q = pin
    · rw [same, if_pos due]
      nofun
    · rw [idle q same, if_neg Bool.false_ne_true]
      exact h.others q same
  case pull => exact (settle_pull _ pin).trans ((if_pos due).trans (latchedPull_ok h.armed code))
  case kept => rw [settle_pull, idle q other, if_neg Bool.false_ne_true, State.withCnt_gpio]

/-- The control is stored with its instant; with no latch armed once the due ones have fired none is afterwards. -/
theorem exec_wr_control {s : State} (mode : Pull) (admits : s.Admits .gppud) (params : s.params.wf = true)
    (idle : (settle s).Disarmed) : ∃ t : State,
      exec (Instr.wr false (s.params.layout.gppud.regWord ((s.params.pudCodes.code mode).setWidth 32)) .gppud) s = .next t
      ∧ OnlyGpio false s t ∧ t.Disarmed ∧ t.gpio = { (settle s).gpio with
          pud := s.params.pudCodes.code mode, pudT := s.cnt, pudSeen := true, arm := t.gpio.arm } := by
  have code := Params.controlWord_code params mode
  obtain ⟨t, completes, -, frame, gpio, arms⟩ := (legacyControlWrite false _ s admits).2
    (code.trans_ne (Params.pudCodes_code_ne_reserved params mode))
  rw [code] at gpio
  refine ⟨t, completes, frame, fun q m i ok armed => ?_, gpio⟩
  obtain ⟨none, latched, -⟩ := arms q
  cases before : (settle s).gpio.arm.get q with
  | none => exact absurd ((none before).symm.trans armed) nofun
  | latched => exact absurd ((latched before).symm.trans armed) nofun
  | armed m i ok => exact idle q m i ok before

/-- With no latch armed a write of the clock changes no pull, and arms the pins whose bit rises and no other. -/
theorem exec_wr_clock_of_disarmed {s : State} {n : Fin 2} (v : Word) (admits : s.Admits (.gppudclk n))
    (disarmed : s.Disarmed) : ∃ t : State, exec (Instr.wr false v (.gppudclk n)) s = .next t ∧ OnlyGpio false s t
      ∧ t.gpio.pud = s.gpio.pud ∧ t.gpio.pull = s.gpio.pull
      ∧ ∀ q : Pin,
        (t.gpio.pudclk.getLsbD q = if q.val / 32 = n.val then v.getLsbD (q.val % 32) else s.gpio.pudclk.getLsbD q)
        ∧ (s.gpio.pudclk.getLsbD q = false → t.gpio.pudclk.getLsbD q = true → s.gpio.pudSeen = true →
            t.gpio.arm.get q =
              .armed s.gpio.pud s.cnt (decide (s.params.tPudTicks ≤ (s.cnt - s.gpio.pudT).toNat)))
        ∧ ((t.gpio.pudclk.getLsbD q = true → s.gpio.pudclk.getLsbD q = true) →
            ∀ m i ok, t.gpio.arm.get q ≠ .armed m i ok) := by
  obtain ⟨settled, pull⟩ := disarmed.settle
  obtain ⟨t, completes, -, frame, gpio, pins⟩ := legacyClockWrite n false v s admits
  have control : t.gpio.pud = s.gpio.pud := by rw [gpio]; exact settle_pud s
  refine ⟨t, completes, frame, control, vector_ext_get fun q => ?pull, fun q => ?pin⟩ <;>
    obtain ⟨written, stays, rises, falls⟩ := pins q
  case pull =>
    rw [← pull]
    cases old : s.gpio.pudclk.getLsbD q <;> cases new : t.gpio.pudclk.getLsbD q
    · exact (stays (old.trans new.symm)).2
    · exact (rises old new).1
    · exact (falls old new).2 (settled q)
    · exact (stays (old.trans new.symm)).2
  case pin =>
    refine ⟨written, fun old new seen => ?armed, fun unrisen => ?disarmed⟩
    case armed =>
      obtain ⟨-, ok, armed, setup⟩ := rises old new
      rw [armed, setup seen]
    case disarmed =>
      by_cases same : s.gpio.pudclk.getLsbD q = t.gpio.pudclk.getLsbD q
      · rw [(stays same).1]
        exact settled q
      · have new : t.gpio.pudclk.getLsbD q = false := Bool.eq_false_iff.mpr fun new => same ((unrisen new).trans new.symm)
        have old : s.gpio.pudclk.getLsbD q = true := by rwa [new, Bool.not_eq_false] at same
        rw [(falls old new).1]
        nofun

/-- The clock with its setup time kept after the control arms the pin, and the pin only (R165). -/
theorem exec_wr_clock_arms {s : State} {n : Fin 2} {pin : Pin} {k : Nat} (admits : s.Admits (.gppudclk n))
    (hn : n.val = pin.val / 32) (disarmed : s.Disarmed) (clock : s.gpio.pudclk.getLsbD pin = false)
    (seen : s.gpio.pudSeen = true) (written : s.gpio.pudT = s.cnt) (setup : s.params.tPudTicks ≤ k) (short : k < 2 ^ 64) :
    let waited := s.withCnt (s.cnt + BitVec.ofNat 64 k)
    ∃ t : State, exec (Instr.wr false (pinMask pin.val) (.gppudclk n)) waited = .next t ∧ OnlyGpio false waited t
      ∧ t.gpio.pull = s.gpio.pull ∧ t.ArmedOnly pin s.gpio.pud := by
  intro waited
  obtain ⟨t, completes, frame, -, pull, pins⟩ :=
    exec_wr_clock_of_disarmed (s := waited) (pinMask pin.val) (admits.withCnt _) disarmed
  have clocked : t.gpio.pudclk.getLsbD pin = true := by
    rw [(pins pin).1, if_pos hn.symm, pinMask_getLsbD rfl, decide_eq_true rfl]
  refine ⟨t, completes, frame, pull, clocked, ?armed, fun q other => (pins q).2.2 ?unrisen⟩
  case armed =>
    have met : decide (s.params.tPudTicks ≤ (waited.cnt - waited.gpio.pudT).toNat) = true := by
      rw [State.withCnt_cnt, State.withCnt_gpio, written, elapsed_toNat _ short]
      exact decide_eq_true setup
    rw [(pins pin).2.1 clock clocked seen, frame.cnt]
    exact congrArg _ met
  case unrisen =>
    rw [(pins q).1]
    split
    · rename_i member
      rw [pinMask_getLsbD (member.trans hn), decide_eq_false other]
      nofun
    · exact id

/-- Settles O24: the second write arms the pin (`exec_wr_clock_arms`), the third performs its latch
(`State.ArmedOnly.settle_after`), and the writes before and after change no pull because nothing is armed. -/
theorem legacyPullProtocol : Obligations.LegacyPullProtocol := by
  intro s pin mode k₁ k₂ admits params clock disarmed setup short₁ hold short₂ codes control clockReg
  have low : pin.val < 54 := pin.isLt
  obtain ⟨n, hn, reg⟩ : ∃ n : Fin 2, n.val = pin.val / 32 ∧ clockReg = .gppudclk n :=
    ⟨Fin.ofNat 2 (pin.val / 32), by rw [Fin.val_ofNat]; omega, rfl⟩
  have legacy : s.params.variant = .legacy := admits.variant_eq rfl
  obtain ⟨idle, pull₀⟩ := State.Disarmed.settle disarmed
  obtain ⟨s₁, writes₁, frame₁, disarmed₁, gpio₁⟩ := exec_wr_control mode admits params idle
  have params₁ := frame₁.params
  have admits₁ : s₁.Admits .gppud := frame₁.admits admits rfl
  have clock₁ : s₁.gpio.pudclk.getLsbD pin = false := by
    rw [gpio₁]
    exact (congrArg (·.getLsbD pin.val) (settle_pudclk s)).trans clock
  obtain ⟨s₂, writes₂, frame₂, pull₂, armed₂⟩ := exec_wr_clock_arms (s := s₁) (k := k₁) (admits₁.sibling rfl rfl) hn
    disarmed₁ clock₁ (by rw [gpio₁]) (by rw [gpio₁, frame₁.cnt]) (by rwa [params₁]) short₁
  have params₂ : s₂.params = s.params := frame₂.params.trans params₁
  have admits₂ : s₂.Admits .gppud := frame₂.admits (admits₁.withCnt _) rfl
  have code : s₂.params.pudCodes.decode s₁.gpio.pud = some mode := by
    rw [params₂, gpio₁]
    exact Params.pudCodes_decode_code params mode
  obtain ⟨idle₂, pinPull, otherPulls⟩ := armed₂.settle_after (k := k₂) (by rwa [params₂]) code (by rwa [params₂]) short₂
  obtain ⟨s₃, writes₃, frame₃, disarmed₃, gpio₃⟩ := exec_wr_control (s := s₂.withCnt (s₂.cnt + BitVec.ofNat 64 k₂)) .off
    (admits₂.withCnt _) (by rwa [State.withCnt_params, params₂]) idle₂
  rw [State.withCnt_params, params₂] at writes₃ gpio₃
  obtain ⟨s₄, writes₄, -, pud₄, pull₄, pins₄⟩ := exec_wr_clock_of_disarmed (n := n) 0
    ((frame₃.admits (admits₂.withCnt _) rfl).sibling rfl rfl) disarmed₃
  have pull₁ : s₁.gpio.pull = s.gpio.pull := by rw [gpio₁]; exact pull₀
  refine ⟨s₁, s₂, s₃, s₄, writes₁, reg ▸ writes₂, writes₃, reg ▸ writes₄, ?pull, ?control, fun q member => ?clock,
    fun q other => ?others⟩
  case pull => rw [pull₄, gpio₃]; exact pinPull
  case control => rw [pud₄, gpio₃]
  case clock => rw [(pins₄ q).1, if_pos (member.trans hn.symm)]; exact BitVec.getLsbD_zero
  case others => rw [pull₄, gpio₃, ← pull₁, ← pull₂]; exact otherPulls q other

end Sys2Proof.Machine
end

section
/-! SUPPORT. The SPI1 divider (R317) and the reversal of a byte (R332): the statements of spec/46_sequences_spi.md about
values alone. -/

namespace Sys2Proof.Machine

/-! ### `aux_calc_divider` (R317) -/

section
variable {p : Params} {f g n : Nat}

/-- The frequency `aux_calc_divider` works with: the one asked for, held within the limits (R317). -/
def auxClampHz (p : Params) (hz : Nat) : Nat := min (max hz p.auxClockMin) p.auxClockMax

theorem auxClampHz_pos (h : p.wf = true) (f : Nat) : 0 < auxClampHz p f := by
  simp only [Params.wf, Bool.and_eq_true, decide_eq_true_eq] at h
  obtain ⟨⟨⟨-, minPos⟩, ordered⟩, -⟩ := h
  exact lt_min (lt_max_of_lt_right minPos) (minPos.trans_le ordered)

theorem auxClampHz_mono (h : f ≤ g) : auxClampHz p f ≤ auxClampHz p g :=
  min_le_min_right _ (max_le_max_right _ h)

theorem auxClampHz_of_le_min (h : f ≤ p.auxClockMin) : auxClampHz p f = auxClampHz p p.auxClockMin := by
  rw [auxClampHz, auxClampHz, max_eq_right h, max_self]

theorem auxClampHz_of_max_le (h : p.auxClockMax ≤ f) : auxClampHz p f = auxClampHz p p.auxClockMax := by
  rw [auxClampHz, auxClampHz, min_eq_right (le_max_of_le_left h), min_eq_right (le_max_left _ _)]

/-- The divider depends on the frequency asked for only through the clamped one. -/
theorem auxDivider_congr (h : auxClampHz p f = auxClampHz p g) : auxDivider p f = auxDivider p g := by
  unfold auxClampHz at h
  simp only [auxDivider, h]

/-- The divider is the least field value whose clock is at most the clamped frequency, cut at the field's maximum: what
rounding upwards gives. -/
theorem auxDivider_le_iff (h : p.wf = true) :
    auxDivider p f ≤ n ↔ p.auxSpeedMax ≤ n ∨ p.coreClockHz ≤ auxClampHz p f * (2 * (n + 1)) := by
  have period : 0 < 2 * auxClampHz p f := Nat.mul_pos two_pos (auxClampHz_pos h f)
  calc auxDivider p f ≤ n
    _ ↔ min (p.coreClockHz ⌈/⌉ (2 * auxClampHz p f) - 1) p.auxSpeedMax ≤ n := by
      rw [Nat.ceilDiv_eq_add_pred_div, Nat.add_sub_assoc period]
      rfl
    _ ↔ p.auxSpeedMax ≤ n ∨ p.coreClockHz ≤ auxClampHz p f * (2 * (n + 1)) := by
      rw [min_le_iff, Nat.sub_le_iff_le_add, ceilDiv_le_iff_le_mul period, or_comm, Nat.mul_left_comm, Nat.mul_assoc]

end

/-- Settles O52, by what it means for the divider to be at most a value (`auxDivider_le_iff`), and by the clamping of the
frequency. -/
theorem auxiliaryDivider : Obligations.AuxiliaryDivider := by
  intro p wf
  have reached (f : Nat) := (auxDivider_le_iff (f := f) wf).mp le_rfl
  refine ⟨fun f g faster => ?falls, fun f low => auxDivider_congr (auxClampHz_of_le_min low),
    fun f high => auxDivider_congr (auxClampHz_of_max_le high), fun f => (auxDivider_le_iff wf).mpr (.inl le_rfl),
    fun f uncut => (reached f).resolve_left uncut.not_ge⟩
  case falls =>
    exact (auxDivider_le_iff wf).mpr
      ((reached f).imp_right fun slow => slow.trans (Nat.mul_le_mul_right _ (auxClampHz_mono faster)))

/-! ### Bit reversal (R332) -/

/-- The byte whose low half is `n` and whose high half is `n` reversed. -/
def mirrorNibble (n : BitVec 4) : Byte := packBits 8 fun i => n.getLsbD (min i (7 - i))

/-- A byte that is its own reversal is fixed by its low half. -/
theorem eq_mirrorNibble_of_bitReverse_eq {b : Byte} (h : bitReverse b = b) : b = mirrorNibble (b.setWidth 4) := by
  apply BitVec.eq_of_getLsbD_eq
  intro i hi
  have mirrored : b.getLsbD i = b.getLsbD (7 - i) := by rw [← bitReverse_getLsbD b i hi, h]
  have low : min i (7 - i) < 4 := by omega
  rw [mirrorNibble, packBits_getLsbD, BitVec.getLsbD_setWidth, decide_eq_true hi, decide_eq_true low, Bool.true_and,
    Bool.true_and]
  obtain inLow | inHigh := Nat.le_total i (7 - i)
  · rw [Nat.min_eq_left inLow]
  · rw [Nat.min_eq_right inHigh, mirrored]

/-- Settles O51: reversal undoes itself bit by bit (`bitReverse_bitReverse`), and there are as many bytes that are their own
reversal as there are low halves (`eq_mirrorNibble_of_bitReverse_eq`). -/
theorem bitReversal : Obligations.BitReversal := by
  refine ⟨bitReverse_bitReverse, fun b => ⟨fun fixed => ?listed, fun listed => ?fixed⟩, orderByte_orderByte⟩
  case listed =>
    rw [eq_mirrorNibble_of_bitReverse_eq fixed]
    generalize b.setWidth 4 = n
    revert n
    decide
  case fixed =>
    revert b
    decide

end Sys2Proof.Machine
end
